-- ==== Sys2Proof/Word.lean ====
section
/-! DEFINITION. The value types of the block (spec/00_scope.md R10): all integers are unsigned.

`Cause` and `Handle` are opaque in the spec (R7, D4). A state must be plain data, so here each is a token that
carries a number and nothing else; no operation looks inside one (log entry 6). -/

namespace Sys2Proof

/-- `Byte`, 8 bits unsigned (R10). -/
abbrev Byte := BitVec 8

/-- `RawWord`, 16 bits: bit `i` is D`i`, D15 the most significant (R8, R10). -/
abbrev RawWord := BitVec 16

/-- `Magnitude`, 12 bits unsigned (R10). -/
abbrev Magnitude := BitVec 12

/-- `Celsius`, the bit pattern of a 64-bit floating-point number (R10; the format is log entry 7). -/
abbrev Celsius := BitVec 64

/-- The command word `CMD19` (spec/30_encoding.md R47): OP in bits 18 to 16, ARG in bits 15 to 0. -/
abbrev CmdWord := BitVec 19

/-- The opaque cause a transport error carries (R7, spec/60_exceptions.md R82). DESIGN CHOICE: a numbered token. -/
structure Cause where
  token : Nat
  deriving DecidableEq, Repr, Inhabited

/-- The opaque channel reference a successful open returns (spec/10_state.md R15). DESIGN CHOICE: a numbered token. -/
structure Handle where
  token : Nat
  deriving DecidableEq, Repr, Inhabited

/-- The device path string given to the open-and-configure step (R7, D15). -/
abbrev DevicePath := String

end Sys2Proof
end

