-- ==== Sys2Proof/Config.lean ====
section
/-! DEFINITION. What is fixed for the block: the constants and the open parameters of spec/00_scope.md R7, the shapes of
the channel's replies (spec/20_memory.md R27, spec/42_connection.md R76), and the free values that stand for replies
nothing else fixes. The two parameters that change which operations exist, HANDLE_OWNING and RECONNECT, must be readable
by a step that takes no argument but the state, so their values stand in State (log entries 2 and 8). -/

namespace Sys2Proof

/-- The three settings the SPI channel is configured with (spec/10_state.md R19); the clock mode as CPOL and CPHA. -/
structure SpiSettings where
  bitsPerWord : Nat
  maxClockHz  : Nat
  cpol        : Bool
  cpha        : Bool
  deriving DecidableEq, Repr

/-- `Err(cause)` or `Ok(bytes)`: what a channel says to one `ChanRead` (R9). The list is as long as the channel makes it;
only lengths 0 to 2 are within its contract (R27, R28). -/
inductive ReadReply where
  | err (c : Cause)
  | ok  (bytes : List Byte)
  deriving DecidableEq, Repr

/-- The four shapes a reply to `ChanRead(2)` can have (R27). -/
inductive FrameReply where
  | err   (c : Cause)
  | empty
  | short (b0 : Byte)
  | frame (b0 b1 : Byte)
  deriving DecidableEq, Repr, Inhabited

/-- The two replies of `ChanOpen` (R76). -/
inductive OpenReply where
  | err (c : Cause)
  | ok  (h : Handle)
  deriving DecidableEq, Repr, Inhabited

/-- What the environment does with one call: it replies, or it never does (spec/70_reset_and_hazards.md R109, U14;
log entry 9). -/
inductive Answer (α : Type) where
  | replied (r : α)
  | silent
  deriving DecidableEq, Repr

/-- `RECONNECT` (R7, D12; log entry 8): what CONNECT does while already connected. `notAdmitted` is the spec's value;
`replaceOnSuccess` is the example D12 spells out: "replace the handle on success and keep the old one on failure". -/
inductive Reconnect where
  | notAdmitted
  | replaceOnSuccess
  deriving DecidableEq, Repr

/-- `FRAME_BYTES` (R7): the byte count of every `ChanRead`. -/
def Config.frameBytes : Nat := 2

/-- `TEMP_SHIFT` (R7). -/
def Config.tempShift : Nat := 3

/-- `TEMP_MASK` (R7; spec/90_conflicts.md C1 rejects 0x1FFF). -/
def Config.tempMask : RawWord := 0x0FFF#16

/-- `FAULT_MASK` (R7): bit D2. -/
def Config.faultMask : RawWord := 0x0004#16

/-- `SCALE` (R7): degrees Celsius per unit of magnitude, exactly one quarter. -/
def Config.scale : ℚ := 1 / 4

/-- `SPI_BITS_PER_WORD`, `SPI_MAX_CLOCK_HZ` and `SPI_MODE` (R7, R19): 8 bits, 1 MHz, mode 1 (CPOL = 0, CPHA = 1). -/
def Config.spi : SpiSettings where
  bitsPerWord := 8
  maxClockHz  := 1000000
  cpol        := false
  cpha        := true

/-- DESIGN CHOICE (log entry 2): the HANDLE_OWNING that `State.reset` takes. The spec leaves it open (D2). With `true` every
row of the opcode table exists. -/
def Config.handleOwningAtReset : Bool := true

/-- `DEVICE_PATH` (R7, D15): opaque, so no claim can rest on it (log entry 10). -/
opaque Config.devicePath : DevicePath

/-- FREE VALUE (log entry 3): the reply to a `ChanRead(2)` that the state does not fix, numbered by the calls made before.
Nothing constrains it: any of the four shapes, any cause, any bytes (D18). -/
opaque Config.freeReadReply : Nat → FrameReply

/-- FREE VALUE (log entry 3): the reply to a `ChanOpen` that the state does not fix, numbered in the same way (D18). -/
opaque Config.freeOpenReply : Nat → OpenReply

end Sys2Proof
end

