-- ==== Sys2Proof/Machine/State.lean ====
section
/-! DEFINITION. The whole state: what spec/10_state.md R11 gives the block (`CONN`), the parameters a step must read, the
inputs of the step as plain data (the host's commands, the channel's answers), the result port (R23), and the history of
calls made to the environment (spec/20_memory.md R36). There is no register, program counter, flag or memory (R13, R14,
R17, R21). -/

namespace Sys2Proof.Machine

/-- `CONN` (R15). -/
inductive Conn where
  | unconnected
  | connected (h : Handle)
  deriving DecidableEq, Repr

/-- HANDLE_OWNING together with the state that exists only when it is true (R7, R15): a borrowed-channel block has no
`CONN`. -/
inductive Variant where
  | borrowed
  | handleOwning (conn : Conn)
  deriving DecidableEq, Repr

/-- The channel a read goes to: the one the host passed, or the one CONNECT opened (R15). -/
inductive ChannelRef where
  | attached
  | owned (h : Handle)
  deriving DecidableEq, Repr

/-- One call to the environment: `ChanRead(n)` on a channel (spec/20_memory.md R27), or `ChanOpen(path)` with the settings
it configures (spec/42_connection.md R76). -/
inductive ChanCall where
  | read  (channel : ChannelRef) (n : Nat)
  | open_ (path : DevicePath) (settings : SpiSettings)
  deriving DecidableEq, Repr

/-- The payload of a success (spec/30_encoding.md R49). -/
inductive Payload where
  | word    (w : RawWord)
  | bool    (b : Bool)
  | celsius (t : Celsius)
  | nothing
  deriving DecidableEq, Repr

/-- The four typed errors (spec/60_exceptions.md R81); only the transport error carries anything (R83, D19). -/
inductive OpError where
  | transport (c : Cause)
  | noData
  | openCircuit
  | notConnected
  deriving DecidableEq, Repr

/-- The one result of an operation (R23, R49): a success value or a typed error, never both. -/
inductive OpResult where
  | ok    (p : Payload)
  | error (e : OpError)
  deriving DecidableEq, Repr

/-- The state. -/
structure State where
  /-- HANDLE_OWNING and, when it is true, `CONN` (R7, R15). -/
  variant     : Variant
  /-- RECONNECT (R7, spec/42_connection.md R79); no step changes it. -/
  reconnect   : Reconnect
  /-- Input: the command words the host is presenting, the next one first (R12, R14). -/
  commands    : List CmdWord
  /-- Input: what the channel does with the coming `ChanRead`s; past the list's end the answers are free (R27, D18). -/
  readAnswers : List (Answer ReadReply)
  /-- Input: what the environment does with the coming `ChanOpen`s; past the list's end the answers are free (R76, D18). -/
  openAnswers : List (Answer OpenReply)
  /-- The model's own field: every call made so far, oldest first (spec/20_memory.md R36;
  DESIGN CHOICE, log entry 4). -/
  calls       : List ChanCall
  /-- Output: the result of the operation this step completed, nothing otherwise (R23, R24; log entry 5). -/
  result      : Option OpResult
  deriving DecidableEq, Repr

/-- The one way a step stops although the command is good. -/
inductive Fault where
  /-- Raised by READ_RAW_WORD, READ_CELSIUS and CONNECT when the environment never answers their call
  (spec/70_reset_and_hazards.md R109, U14: stuck). Safe: the machine stops where the block never returns. -/
  | operationNeverReturns
  deriving DecidableEq, Repr

/-- The things the spec gives no meaning and tells a model to refuse. -/
inductive Refusal where
  /-- No arm answers with it: every operation has its meaning. Safe. -/
  | notModelled (mnemonic : String)
  /-- Raised by the fetch of a command whose OP is 101, 110 or 111 (spec/30_encoding.md R50, D8). Safe. -/
  | reservedCode (op : BitVec 3)
  /-- Raised by the fetch of OP 100, and by CONNECT itself, when HANDLE_OWNING = false (R50, D9). Safe. -/
  | connectReserved
  /-- Raised by CONNECT while connected when RECONNECT is not admitted (spec/42_connection.md R79, D12). Safe. -/
  | connectWhileConnected
  /-- Raised by READ_RAW_WORD and READ_CELSIUS on a reply of `length` bytes, more than the 2 asked for
  (spec/20_memory.md R28, D3). Safe. -/
  | overlongReply (length : Nat)
  deriving DecidableEq, Repr

/-- Reset for a given HANDLE_OWNING and RECONNECT (spec/10_state.md R24, spec/70_reset_and_hazards.md R98): `CONN` is
Unconnected if it exists, the result port has no value, nothing has been presented, answered or called. -/
def State.resetWith (handleOwning : Bool) (reconnect : Reconnect) : State where
  variant     := if handleOwning then .handleOwning .unconnected else .borrowed
  reconnect   := reconnect
  commands    := []
  readAnswers := []
  openAnswers := []
  calls       := []
  result      := none

/-- The machine right after reset: RECONNECT as R7 gives it, HANDLE_OWNING by log entry 2 (DESIGN CHOICE). -/
def State.reset : State := State.resetWith Config.handleOwningAtReset .notAdmitted

end Sys2Proof.Machine
end

