-- ==== Sys2Proof/Machine/Flags.lean ====
section
/-! DEFINITION. What plays the part of flags (spec/10_state.md R17): the fault flag of a word, and the status of a result.
Neither is stored. -/

namespace Sys2Proof.Machine

/-- `fault(w) = (w & 0x0004) != 0` (spec/30_encoding.md R46, spec/41_word_decoder.md R65). -/
def faultFlag (w : RawWord) : Bool := w &&& Config.faultMask != 0#16

/-- The number of an error (spec/60_exceptions.md R81). -/
def OpError.code : OpError → BitVec 3
  | .transport _  => 0b001#3
  | .noData       => 0b010#3
  | .openCircuit  => 0b011#3
  | .notConnected => 0b100#3

/-- `STATUS` (spec/30_encoding.md R49). -/
def OpResult.status : OpResult → BitVec 3
  | .ok _    => 0b000#3
  | .error e => e.code

/-- The width in bits of a success payload (R49). -/
def Payload.width : Payload → Nat
  | .word _    => 16
  | .bool _    => 1
  | .celsius _ => 64
  | .nothing   => 0

end Sys2Proof.Machine
end

