-- ==== Sys2Proof/Machine/Operands.lean ====
section
/-! DEFINITION. Operand forms: the word made of a frame (spec/20_memory.md R29, spec/30_encoding.md R45), the fields of a
word (R44), the magnitude (R46), and the shape of a channel's reply (R27, R28). -/

namespace Sys2Proof.Machine

/-- The word of a frame, first byte in the high half: `(zext_16(b0) << 8) | zext_16(b1)` (R29, R45). -/
def assembleWord (b0 b1 : Byte) : RawWord := (b0.setWidth 16 <<< 8) ||| b1.setWidth 16

/-- `S`, the dummy sign bit D15 (R44). -/
def signField (w : RawWord) : BitVec 1 := w.extractLsb' 15 1

/-- `MAG`, D14 to D3 (R44). -/
def magField (w : RawWord) : BitVec 12 := w.extractLsb' 3 12

/-- `F`, the thermocouple-input fault bit D2 (R44). -/
def faultField (w : RawWord) : BitVec 1 := w.extractLsb' 2 1

/-- `ID`, the device-ID bit D1 (R44). -/
def idField (w : RawWord) : BitVec 1 := w.extractLsb' 1 1

/-- `Z`, the tri-state bit D0 (R44). -/
def triStateField (w : RawWord) : BitVec 1 := w.extractLsb' 0 1

/-- `mag(w) = (w >> 3) & 0x0FFF`, a 12-bit value (R46; the 13-bit mask is rejected, spec/41_word_decoder.md R73). -/
def magnitude (w : RawWord) : Magnitude := ((w >>> Config.tempShift) &&& Config.tempMask).setWidth 12

/-- The shape of a reply to `ChanRead(2)`; a reply of more than 2 bytes has none and is never truncated (R27, R28). -/
def replyShape? : ReadReply → Option FrameReply
  | .err c         => some (.err c)
  | .ok []         => some .empty
  | .ok [b0]       => some (.short b0)
  | .ok [b0, b1]   => some (.frame b0 b1)
  | .ok (_ :: _ :: _ :: _) => none

/-- How many bytes a reply carries. -/
def replyLength : ReadReply → Nat
  | .err _    => 0
  | .ok bytes => bytes.length

/-- The word of a reply, or the error it means: `Err` is a transport error with its cause unchanged, fewer than 2 bytes is
no data and the short byte is discarded (spec/40_frame_reader.md R61, spec/60_exceptions.md R82, R83). -/
def frameWord : FrameReply → Except OpError RawWord
  | .err c       => .error (.transport c)
  | .empty       => .error .noData
  | .short _     => .error .noData
  | .frame b0 b1 => .ok (assembleWord b0 b1)

end Sys2Proof.Machine
end

