-- ==== Sys2Proof/Machine/Ops.lean ====
section
/-! DEFINITION. The named operations over the state: which channel a read has, one `ChanRead(2)`, one `ChanOpen`, and the
two ways an operation ends, `return` and `raise` (spec/00_scope.md R9). Raising a typed error is this block's taking of an
exception (spec/60_exceptions.md R88): the result is delivered, nothing is saved, no state changes. There is no return from
it: the block is at once ready for the next command (R89). -/

namespace Sys2Proof.Machine

/-- HANDLE_OWNING. -/
def State.handleOwning (s : State) : Bool :=
  match s.variant with
  | .borrowed       => false
  | .handleOwning _ => true

/-- The channel a read goes to, none when HANDLE_OWNING and `CONN` is Unconnected; a borrowed-channel block behaves as if
Connected with the channel the host passed (spec/10_state.md R15). -/
def State.channel (s : State) : Option ChannelRef :=
  match s.variant with
  | .borrowed                    => some .attached
  | .handleOwning .unconnected   => none
  | .handleOwning (.connected h) => some (.owned h)

/-- `return p`: end the operation with a success (R9). -/
def ret (p : Payload) (s : State) : State := { s with result := some (.ok p) }

/-- `raise e`: end the operation with a typed error (R9, spec/60_exceptions.md R88). -/
def raise (e : OpError) (s : State) : State := { s with result := some (.error e) }

/-- The result of what an operation computed. -/
def resultOf : Except OpError Payload → OpResult
  | .ok p    => .ok p
  | .error e => .error e

/-- End the operation with what it computed: `return` a value or `raise` an error. -/
def conclude (r : Except OpError Payload) (s : State) : State :=
  match r with
  | .ok p    => ret p s
  | .error e => raise e s

/-- Note a call in the history (spec/20_memory.md R36). -/
def record (c : ChanCall) (s : State) : State := { s with calls := s.calls ++ [c] }

/-- How one `ChanRead(2)` came out. -/
inductive ReadOutcome where
  | answered (r : FrameReply) (s : State)
  | overlong (length : Nat)
  | never
  deriving DecidableEq, Repr

/-- `ChanRead(2)` on a channel: one transaction, recorded, answered by the first of the coming answers, or by a free value
if there is none (R27, R28, D18). -/
def chanRead (ch : ChannelRef) (s : State) : ReadOutcome :=
  let called := record (.read ch Config.frameBytes) s
  match s.readAnswers with
  | []                 => .answered (Config.freeReadReply s.calls.length) called
  | .silent :: _       => .never
  | .replied r :: rest =>
    match replyShape? r with
    | some f => .answered f { called with readAnswers := rest }
    | none   => .overlong (replyLength r)

/-- How one `ChanOpen` came out. -/
inductive OpenOutcome where
  | answered (r : OpenReply) (s : State)
  | never
  deriving DecidableEq, Repr

/-- `ChanOpen(DEVICE_PATH)` with the three fixed settings (spec/42_connection.md R76), answered in the same way. -/
def chanOpen (s : State) : OpenOutcome :=
  let called := record (.open_ Config.devicePath Config.spi) s
  match s.openAnswers with
  | []                 => .answered (Config.freeOpenReply s.calls.length) called
  | .silent :: _       => .never
  | .replied r :: rest => .answered r { called with openAnswers := rest }

/-- The common part of the two reads (spec/40_frame_reader.md R61, spec/41_word_decoder.md R67): NOT_CONNECTED before
anything else and without a call, else exactly one transaction, then `eval` of the reply decides the result (R87). -/
def readThen (eval : FrameReply → Except OpError Payload) (s : State) : Host.Outcome State Fault Refusal :=
  match s.channel with
  | none    => .next (raise .notConnected s)
  | some ch =>
    match chanRead ch s with
    | .answered r s' => .next (conclude (eval r) s')
    | .overlong n    => .refused (.overlongReply n)
    | .never         => .fault .operationNeverReturns

/-- Store the handle of a successful open and return, or raise the transport error and leave `CONN` alone
(spec/42_connection.md R77, D11). -/
def connectWith (r : OpenReply) (s : State) : State :=
  match r with
  | .err c => raise (.transport c) s
  | .ok h  => ret .nothing { s with variant := .handleOwning (.connected h) }

/-- The body of CONNECT once it is admitted: one `ChanOpen`, then `connectWith` (R77). -/
def openThenConnect (s : State) : Host.Outcome State Fault Refusal :=
  match chanOpen s with
  | .answered r s' => .next (connectWith r s')
  | .never         => .fault .operationNeverReturns

end Sys2Proof.Machine
end

