-- ==== Sys2Proof/Machine/Connection.lean ====
section
/-! DEFINITION. Family 3, the connection step (spec/42_connection.md). -/

namespace Sys2Proof.Machine

/-- CONNECT (R77): no operation of a borrowed-channel block (spec/30_encoding.md R50); while connected it is what RECONNECT
says, and without a RECONNECT it has no meaning (R79, D12). -/
def execConnect (s : State) : Host.Outcome State Fault Refusal :=
  match s.variant with
  | .borrowed                  => .refused .connectReserved
  | .handleOwning .unconnected => openThenConnect s
  | .handleOwning (.connected _) =>
    match s.reconnect with
    | .notAdmitted      => .refused .connectWhileConnected
    | .replaceOnSuccess => openThenConnect s

end Sys2Proof.Machine
end

