-- ==== Sys2Proof/Machine/FrameReader.lean ====
section
/-! DEFINITION. Family 1, the SPI Frame Reader (spec/40_frame_reader.md). -/

namespace Sys2Proof.Machine

/-- What READ_RAW_WORD makes of a reply: the word as received, its fault bit not examined (R61). -/
def rawWordOf (r : FrameReply) : Except OpError Payload :=
  match frameWord r with
  | .error e => .error e
  | .ok w    => .ok (.word w)

/-- READ_RAW_WORD (R61). -/
def execReadRawWord (s : State) : Host.Outcome State Fault Refusal := readThen rawWordOf s

end Sys2Proof.Machine
end

