-- ==== Sys2Proof/Machine/Float.lean ====
section
/-! DEFINITION. The 64-bit floating-point result (spec/41_word_decoder.md R69, R70), in binary64 (D14, GK1; PRESUMED, log entry 7):
1 sign bit, 11 exponent bits with bias 1023, 52 fraction bits. -/

namespace Sys2Proof.Machine

/-- The fields of a binary64 number put together. -/
def f64OfFields (sign : BitVec 1) (exponent : BitVec 11) (fraction : BitVec 52) : BitVec 64 :=
  sign ++ exponent ++ fraction

/-- `q2_to_f64(m)`: the number equal to `m / 4` (R70). Zero is positive zero; otherwise `k` is the position of the highest
set bit, the biased exponent is `1021 + k`, and the fraction is `(m - 2^k) << (52 - k)`. -/
def q2ToF64 (m : Magnitude) : Celsius :=
  if m = 0#12 then 0#64
  else
    let k := m.toNat.log2
    f64OfFields 0#1 (BitVec.ofNat 11 (1021 + k)) (BitVec.ofNat 52 ((m.toNat - 2 ^ k) <<< (52 - k)))

/-- The sign bit. -/
def f64Sign (x : BitVec 64) : BitVec 1 := x.extractLsb' 63 1

/-- The biased exponent. -/
def f64Exponent (x : BitVec 64) : BitVec 11 := x.extractLsb' 52 11

/-- The fraction bits. -/
def f64Fraction (x : BitVec 64) : BitVec 52 := x.extractLsb' 0 52

/-- The rational a binary64 pattern stands for; none for an infinity or a NaN (exponent all ones). Used to say what a
result is worth; the block itself reads no floating-point number (R71). -/
def f64Value (x : BitVec 64) : Option ℚ :=
  let negative : ℚ := if f64Sign x = 0#1 then 1 else -1
  let fraction : ℚ := (f64Fraction x).toNat / 2 ^ 52
  if f64Exponent x = 0x7FF#11 then none
  else if f64Exponent x = 0#11 then some (negative * fraction / 2 ^ 1022)
  else some (negative * (1 + fraction) * 2 ^ (f64Exponent x).toNat / 2 ^ 1023)

/-- The temperature of a word: its magnitude times one quarter, as a 64-bit float (R66). -/
def celsiusOfWord (w : RawWord) : Celsius := q2ToF64 (magnitude w)

end Sys2Proof.Machine
end

