-- ==== Sys2Proof/Machine/WordDecoder.lean ====
section
/-! DEFINITION. Family 2, the Word Decoder (spec/41_word_decoder.md). -/

namespace Sys2Proof.Machine

/-- IS_OPEN_CIRCUIT (R65): a success that carries the fault flag. -/
def execIsOpenCircuit (w : RawWord) (s : State) : Host.Outcome State Fault Refusal :=
  .next (ret (.bool (faultFlag w)) s)

/-- DECODE_CELSIUS (R66): never fails and does not test the fault bit. -/
def execDecodeCelsius (w : RawWord) (s : State) : Host.Outcome State Fault Refusal :=
  .next (ret (.celsius (celsiusOfWord w)) s)

/-- What READ_CELSIUS makes of a reply: the errors of the read first, then OPEN_CIRCUIT on the same word, then its
temperature (R67, R72). -/
def celsiusOf (r : FrameReply) : Except OpError Payload :=
  match frameWord r with
  | .error e => .error e
  | .ok w    => if faultFlag w then .error .openCircuit else .ok (.celsius (celsiusOfWord w))

/-- READ_CELSIUS (R67). -/
def execReadCelsius (s : State) : Host.Outcome State Fault Refusal := readThen celsiusOf s

end Sys2Proof.Machine
end

