-- ==== Sys2Proof/Syntax.lean ====
section
/-! DEFINITION. The five operations of the block, one constructor per row of spec/opcode_table.json
(spec/30_encoding.md R48). The ARG bits an operation ignores (R47, R52) are no operand and are not kept. -/

namespace Sys2Proof

/-- An operation the host can request. -/
inductive Instr where
  /-- READ_RAW_WORD (spec/40_frame_reader.md R61). -/
  | readRawWord
  /-- IS_OPEN_CIRCUIT w (spec/41_word_decoder.md R65). -/
  | isOpenCircuit (w : RawWord)
  /-- DECODE_CELSIUS w (spec/41_word_decoder.md R66). -/
  | decodeCelsius (w : RawWord)
  /-- READ_CELSIUS (spec/41_word_decoder.md R67). -/
  | readCelsius
  /-- CONNECT (spec/42_connection.md R77); it exists only when HANDLE_OWNING = true (R50). -/
  | connect
  deriving DecidableEq, Repr

end Sys2Proof
end

