-- ==== Sys2Proof/Machine/Dispatch.lean ====
section
/-! DEFINITION. One operation on one state, by the operation's own meaning. -/

namespace Sys2Proof.Machine

/-- One whole operation (spec/00_scope.md R6). -/
def exec (i : Instr) (s : State) : Host.Outcome State Fault Refusal :=
  match i with
  | .readRawWord => Sys2Proof.Machine.execReadRawWord s
  | .isOpenCircuit w => Sys2Proof.Machine.execIsOpenCircuit w s
  | .decodeCelsius w => Sys2Proof.Machine.execDecodeCelsius w s
  | .readCelsius => Sys2Proof.Machine.execReadCelsius s
  | .connect => Sys2Proof.Machine.execConnect s

end Sys2Proof.Machine
end

