-- ==== Sys2Proof/WellFormed.lean ====
section
/-! DEFINITION. Which operations exist in a configuration. No 16-bit operand is illegal (spec/30_encoding.md R51), so the
one check is that CONNECT is an operation only when HANDLE_OWNING = true (R50, D9). -/

namespace Sys2Proof

/-- The operation exists when HANDLE_OWNING is `owning`. -/
def Instr.wellFormed (owning : Bool) : Instr → Bool
  | .readRawWord     => true
  | .isOpenCircuit _ => true
  | .decodeCelsius _ => true
  | .readCelsius     => true
  | .connect         => owning

end Sys2Proof
end

