-- ==== Sys2Proof/Decode.lean ====
section
/-! DEFINITION. Decoding the 19-bit command word (spec/30_encoding.md R47, R48, R50), the encoder, and the opcode table's
own match and mask of each row. Decoding is total; a reserved code is rejected by name and never mapped to a neighbour. -/

namespace Sys2Proof

/-- Why a command word is invalid (R50). -/
inductive DecodeError where
  /-- OP is 101, 110 or 111 (D8). -/
  | reservedCode (op : BitVec 3)
  /-- OP is 100 and HANDLE_OWNING = false (D9). -/
  | connectReserved
  deriving DecidableEq, Repr

/-- The decoder's verdict. -/
inductive Decoded where
  | instr   (i : Instr)
  | invalid (e : DecodeError)
  deriving DecidableEq, Repr

/-- `OP`, bits 18 to 16 (R47). -/
def opField (w : CmdWord) : BitVec 3 := w.extractLsb' 16 3

/-- `ARG`, bits 15 to 0 (R47). -/
def argField (w : CmdWord) : RawWord := w.extractLsb' 0 16

/-- Decode a command word in the configuration HANDLE_OWNING = `owning` (R48, R50). -/
def decode (owning : Bool) (w : CmdWord) : Decoded :=
  match (opField w).toNat with
  | 0 => .instr .readRawWord
  | 1 => .instr (.isOpenCircuit (argField w))
  | 2 => .instr (.decodeCelsius (argField w))
  | 3 => .instr .readCelsius
  | 4 => if owning then .instr .connect else .invalid .connectReserved
  | _ => .invalid (.reservedCode (opField w))

/-- The instruction of a verdict, if it has one. -/
def Decoded.instr? : Decoded → Option Instr
  | .instr i   => some i
  | .invalid _ => none

/-- `{OP, ARG}` (R47). -/
def commandWord (op : BitVec 3) (arg : RawWord) : CmdWord := (op.setWidth 19 <<< 16) ||| arg.setWidth 19

/-- The word of an operation; an operation without operand is written with ARG = 0x0000 (R48, R55). -/
def encode : Instr → CmdWord
  | .readRawWord     => commandWord 0b000#3 0x0000#16
  | .isOpenCircuit w => commandWord 0b001#3 w
  | .decodeCelsius w => commandWord 0b010#3 w
  | .readCelsius     => commandWord 0b011#3 0x0000#16
  | .connect         => commandWord 0b100#3 0x0000#16

/-- A row of the opcode table as far as it concerns the bits (R48). -/
structure OpcodeRow where
  mnemonic : String
  pattern  : CmdWord
  mask     : CmdWord
  deriving DecidableEq, Repr

/-- The five rows of spec/opcode_table.json, in its order. -/
def opcodeTable : List OpcodeRow :=
  [ ⟨"READ_RAW_WORD",   0x00000#19, 0x70000#19⟩
  , ⟨"IS_OPEN_CIRCUIT", 0x10000#19, 0x70000#19⟩
  , ⟨"DECODE_CELSIUS",  0x20000#19, 0x70000#19⟩
  , ⟨"READ_CELSIUS",    0x30000#19, 0x70000#19⟩
  , ⟨"CONNECT",         0x40000#19, 0x70000#19⟩ ]

/-- A word is one of a row's when it has the row's pattern under its mask. -/
def OpcodeRow.matchesWord (r : OpcodeRow) (w : CmdWord) : Bool := w &&& r.mask == r.pattern

/-- The mnemonic of an operation (R48). -/
def Instr.mnemonic : Instr → String
  | .readRawWord     => "READ_RAW_WORD"
  | .isOpenCircuit _ => "IS_OPEN_CIRCUIT"
  | .decodeCelsius _ => "DECODE_CELSIUS"
  | .readCelsius     => "READ_CELSIUS"
  | .connect         => "CONNECT"

/-- The operand an operation carries in ARG, if it has one (R47). -/
def Instr.operand? : Instr → Option RawWord
  | .readRawWord     => none
  | .isOpenCircuit w => some w
  | .decodeCelsius w => some w
  | .readCelsius     => none
  | .connect         => none

/-- A number as a command word. A command word has 19 bits (R42, R53), so a number that needs more is none (log entry 11). -/
def cmdWordOfNat (n : Nat) : Option CmdWord :=
  if n < 2 ^ 19 then some (BitVec.ofNat 19 n) else none

/-- What the decoder reads from an instruction whose low `nbits` bits are those of `w` and whose other bits are zero, bit 0
being ARG's bit 0, in the configuration of `State.reset` (log entry 2). -/
def decodeTableWord (nbits w : Nat) : Option Instr :=
  match cmdWordOfNat (w % 2 ^ nbits) with
  | some c => (decode Config.handleOwningAtReset c).instr?
  | none   => none

end Sys2Proof
end

