-- ==== Sys2Proof/Machine/Fetch.lean ====
section
/-! DEFINITION. Taking the command the host presents. There is no program counter and no instruction memory
(spec/10_state.md R14): the next instruction is the first command word on the list. -/

namespace Sys2Proof.Machine

/-- What is there to do. -/
inductive Fetched where
  | nothing
  | invalid (e : DecodeError)
  | command (i : Instr) (s : State)
  deriving DecidableEq, Repr

/-- Take the next command and decode it in the block's own configuration (spec/30_encoding.md R50). -/
def fetch (s : State) : Fetched :=
  match s.commands with
  | []        => .nothing
  | w :: rest =>
    match decode s.handleOwning w with
    | .instr i   => .command i { s with commands := rest }
    | .invalid e => .invalid e

/-- The refusal of an invalid command word (R50). -/
def refusalOf : DecodeError → Refusal
  | .reservedCode op => .reservedCode op
  | .connectReserved => .connectReserved

/-- No command is presented: the block waits, and the result port, which is valid only when an operation returns
(spec/10_state.md R23), carries nothing. DESIGN CHOICE (log entry 5). -/
def idle (s : State) : State := { s with result := none }

/-- The host presents a command word as the next one. -/
def present (w : CmdWord) (s : State) : State := { s with commands := w :: s.commands }

/-- The host presents the instruction whose low `nbits` bits are those of `w`; a number of more than 19 bits is no command
word and is not presented. -/
def presentTableWord (nbits w : Nat) (s : State) : State :=
  match cmdWordOfNat (w % 2 ^ nbits) with
  | some c => present c s
  | none   => s

end Sys2Proof.Machine
end

