-- ==== Sys2Proof/Machine/Step.lean ====
section
/-! DEFINITION. One step: one whole operation of the command the host presents next (spec/00_scope.md R6). -/

namespace Sys2Proof.Machine

/-- The step: idle without a command, refuse an invalid one, execute any other. -/
def step (s : State) : Host.Outcome State Fault Refusal :=
  match fetch s with
  | .nothing      => .next (idle s)
  | .invalid e    => .refused (refusalOf e)
  | .command i s' => exec i s'

/-- The state with an instruction, numbered as spec/opcode_table.json numbers its bits, as the next one `step` takes. -/
def State.withFetchWord (s : State) (nbits w : Nat) : State := presentTableWord nbits w s

end Sys2Proof.Machine
end

