-- ==== Sys2Proof/Safety.lean ====
section
/-! DEFINITION. The terms claims are stated in: the state after one call and its result, the invariant of the machine, what
each operation may touch and may answer (spec/10_state.md R25, spec/60_exceptions.md R81), and renaming of opaque causes
(R82). -/

namespace Sys2Proof.Machine

/-- `s` after one `ChanRead(2)` on `ch` that took the first answer, leaving `rest`, and the result `r`; all else as in `s`. -/
def State.afterRead (s : State) (ch : ChannelRef) (rest : List (Answer ReadReply)) (r : OpResult) : State :=
  { s with readAnswers := rest, calls := s.calls ++ [.read ch 2], result := some r }

/-- `s` after one `ChanOpen(DEVICE_PATH)` with 8 bits per word, 1 MHz and mode 1 (CPOL = 0, CPHA = 1; spec/10_state.md R19,
spec/42_connection.md R76) that took the first answer, leaving `rest`, with the variant `v` and the result `r`; all else as
in `s`. -/
def State.afterOpen (s : State) (rest : List (Answer OpenReply)) (v : Variant) (r : OpResult) : State :=
  { s with
    openAnswers := rest
    calls := s.calls ++ [.open_ Config.devicePath
      { bitsPerWord := 8, maxClockHz := 1000000, cpol := false, cpha := true }]
    variant := v
    result := some r }

/-- A call that a block of variant `v` can have made: reads ask for 2 bytes (spec/20_memory.md R27) of the channel the
variant has, opens name DEVICE_PATH and the three settings 8 bits, 1 MHz, mode 1 (spec/42_connection.md R76, R19) and are made
by a handle-owning block only (R75). -/
def CallFits (v : Variant) : ChanCall → Prop
  | .read .attached n     => n = 2 ∧ v = .borrowed
  | .read (.owned _) n    => n = 2 ∧ v ≠ .borrowed
  | .open_ path settings  => path = Config.devicePath ∧ v ≠ .borrowed ∧
      settings = { bitsPerWord := 8, maxClockHz := 1000000, cpol := false, cpha := true }

/-- A 64-bit float that is one of the 4096 temperatures 0, 0.25, ..., 1023.75 (spec/41_word_decoder.md R69), read in binary64
(PRESUMED, log entry 7). -/
def IsTemperature (t : Celsius) : Prop := ∃ m : ℕ, m ≤ 4095 ∧ f64Value t = some ((m : ℚ) * Config.scale)

/-- The invariant of the machine. -/
structure State.Inv (s : State) : Prop where
  /-- Every call in the history is one this block can make. -/
  callsFit : ∀ c ∈ s.calls, CallFits s.variant c
  /-- While Unconnected no read has touched the channel (spec/60_exceptions.md R85). -/
  unconnectedNeverRead : s.variant = .handleOwning .unconnected → ∀ ch n, ChanCall.read ch n ∉ s.calls
  /-- Every read of a connected block went to the one handle it has, as long as RECONNECT is not admitted (R78). -/
  readsOnTheHandle : s.reconnect = .notAdmitted → ∀ h h' n, s.variant = .handleOwning (.connected h) →
    ChanCall.read (.owned h') n ∈ s.calls → h' = h
  /-- A temperature on the result port is one of the 4096. -/
  temperature : ∀ t, s.result = some (.ok (.celsius t)) → IsTemperature t
  /-- NOT_CONNECTED on the result port is true. -/
  notConnected : s.result = some (.error .notConnected) → s.variant = .handleOwning .unconnected

/-- The results an operation may answer with (spec/60_exceptions.md R81, spec/30_encoding.md R49). -/
def MayAnswer : Instr → OpResult → Prop
  | .readRawWord, .ok (.word _)           => True
  | .readRawWord, .error (.transport _)   => True
  | .readRawWord, .error .noData          => True
  | .readRawWord, .error .notConnected    => True
  | .isOpenCircuit _, .ok (.bool _)       => True
  | .decodeCelsius _, .ok (.celsius _)    => True
  | .readCelsius, .ok (.celsius _)        => True
  | .readCelsius, .error _                => True
  | .connect, .ok .nothing                => True
  | .connect, .error (.transport _)       => True
  | _, _                                  => False

/-- The operation is one of the two reads. -/
def IsRead (i : Instr) : Prop := i = .readRawWord ∨ i = .readCelsius

/-- The call an operation other than CONNECT makes when it reaches the channel `ch`: one `ChanRead(2)` if it is a read, none
if it is a decode operation (spec/10_state.md R25). -/
def callsOn (ch : ChannelRef) : Instr → List ChanCall
  | .readRawWord     => [.read ch 2]
  | .isOpenCircuit _ => []
  | .decodeCelsius _ => []
  | .readCelsius     => [.read ch 2]
  | .connect         => []

/-- CONNECT is presented where it is admitted: from Unconnected, or while Connected with RECONNECT admitting it
(spec/42_connection.md R77, R79). -/
def ConnectIsAdmitted (s : State) : Prop :=
  s.variant = .handleOwning .unconnected ∨
  (s.reconnect = .replaceOnSuccess ∧ ∃ h, s.variant = .handleOwning (.connected h))

/-- The next answer of a list is one the channel's contract allows: no list is left (the answer is then free), or it is a
reply of at most 2 bytes (spec/20_memory.md R28) that does come (R109). -/
def ReadAnswerIsAdmitted : List (Answer ReadReply) → Prop
  | []                       => True
  | .silent :: _             => False
  | .replied (.err _) :: _   => True
  | .replied (.ok bytes) :: _ => bytes.length ≤ 2

/-- The same for `ChanOpen`. -/
def OpenAnswerIsAdmitted : List (Answer OpenReply) → Prop
  | []             => True
  | .silent :: _   => False
  | .replied _ :: _ => True

/-- The reply the next `ChanRead(2)` gets: the first of the coming answers, or the free one; none where that answer is not
one of the four shapes or never comes (spec/20_memory.md R27). -/
def State.nextReply (s : State) : Option FrameReply :=
  match s.readAnswers with
  | []              => some (Config.freeReadReply s.calls.length)
  | .silent :: _    => none
  | .replied r :: _ => replyShape? r

/-- Rename the cause of a read reply. -/
def ReadAnswer.rename (f : Cause → Cause) : Answer ReadReply → Answer ReadReply
  | .replied (.err c)    => .replied (.err (f c))
  | .replied (.ok bytes) => .replied (.ok bytes)
  | .silent              => .silent

/-- Rename the cause of an open reply. -/
def OpenAnswer.rename (f : Cause → Cause) : Answer OpenReply → Answer OpenReply
  | .replied (.err c) => .replied (.err (f c))
  | .replied (.ok h)  => .replied (.ok h)
  | .silent           => .silent

/-- Rename the cause of a result. -/
def OpResult.rename (f : Cause → Cause) : OpResult → OpResult
  | .error (.transport c) => .error (.transport (f c))
  | .error .noData        => .error .noData
  | .error .openCircuit   => .error .openCircuit
  | .error .notConnected  => .error .notConnected
  | .ok p                 => .ok p

/-- Rename every cause a state holds. -/
def State.renameCauses (f : Cause → Cause) (s : State) : State :=
  { s with
    readAnswers := s.readAnswers.map (ReadAnswer.rename f)
    openAnswers := s.openAnswers.map (OpenAnswer.rename f)
    result      := s.result.map (OpResult.rename f) }

/-- Rename every cause of an outcome's state. -/
def renameOutcome (f : Cause → Cause) : Host.Outcome State Fault Refusal → Host.Outcome State Fault Refusal
  | .next s    => .next (s.renameCauses f)
  | .fault r   => .fault r
  | .refused r => .refused r

end Sys2Proof.Machine
end

