-- ==== Sys2Proof/Certificates/Slice0/Obligations.lean ====
section
/-! DEFINITION. The statements for the provers, from the numbered rules of spec/. In each the block's outputs are written
out, so that "all else unchanged" is the record update itself. A statement that rests on a choice of the model says so and
names the log entry. -/

open Sys2Proof Sys2Proof.Machine

/-! ### Formats -/

/-- spec/30_encoding.md R44: the five fields, put back in their order, are the word; each mask covers its own field, and the
masks are disjoint with union 0xFFFF. -/
def Obligations.WordFieldsPartitionTheWord : Prop :=
  (∀ w : RawWord,
    w = signField w ++ magField w ++ faultField w ++ idField w ++ triStateField w) ∧
  (∀ w : RawWord,
    (signField w = 0#1 ↔ w &&& 0x8000#16 = 0#16) ∧ (magField w = 0#12 ↔ w &&& 0x7FF8#16 = 0#16) ∧
    (faultField w = 0#1 ↔ w &&& 0x0004#16 = 0#16) ∧ (idField w = 0#1 ↔ w &&& 0x0002#16 = 0#16) ∧
    (triStateField w = 0#1 ↔ w &&& 0x0001#16 = 0#16)) ∧
  0x8000#16 ||| 0x7FF8#16 ||| 0x0004#16 ||| 0x0002#16 ||| 0x0001#16 = 0xFFFF#16

/-- spec/20_memory.md R29, spec/30_encoding.md R45: the frame is big-endian, as a formula and bit by bit. -/
def Obligations.FrameIsAssembledBigEndian : Prop :=
  (∀ b0 b1 : Byte, assembleWord b0 b1 = (b0.setWidth 16 <<< 8) ||| b1.setWidth 16) ∧
  (∀ (b0 b1 : Byte) (i : ℕ), i < 8 →
    (assembleWord b0 b1).getLsbD (8 + i) = b0.getLsbD i ∧ (assembleWord b0 b1).getLsbD i = b1.getLsbD i) ∧
  assembleWord 0x01#8 0x90#8 = 0x0190#16 ∧ assembleWord 0x7F#8 0xF8#8 = 0x7FF8#16 ∧
  assembleWord 0x00#8 0x04#8 = 0x0004#16

/-- spec/30_encoding.md R46: the fault flag and the magnitude, in both of the rule's forms, the magnitude zero-extended. -/
def Obligations.FaultAndMagnitudeAreExtracted : Prop :=
  ∀ w : RawWord,
    faultFlag w = decide (w &&& 0x0004#16 ≠ 0#16) ∧
    faultFlag w = w.getLsbD 2 ∧
    (magnitude w).setWidth 16 = (w >>> 3) &&& 0x0FFF#16 ∧
    magnitude w = w.extractLsb' 3 12

/-- spec/41_word_decoder.md R68: mag as floor((w mod 32768) / 8), monotone in w & 0x7FF8, and with the inverse that builds a
conforming word from a magnitude and a fault bit (hence onto). -/
def Obligations.MagnitudeLaws : Prop :=
  (∀ w : RawWord, (magnitude w).toNat = w.toNat % 32768 / 8 ∧ magnitude w = magField w) ∧
  (∀ v w : RawWord, v &&& 0x7FF8#16 ≤ w &&& 0x7FF8#16 → magnitude v ≤ magnitude w) ∧
  (∀ (m : Magnitude) (f : BitVec 1),
    let w : RawWord := (m.setWidth 16 <<< 3) ||| (f.setWidth 16 <<< 2)
    magnitude w = m ∧ faultFlag w = decide (f = 1#1) ∧ w ≤ 0x7FFC#16)

/-- spec/30_encoding.md R51: the bits the decoder does not use are ignored, with the rule's examples. -/
def Obligations.UnusedWordBitsAreIgnored : Prop :=
  (∀ w : RawWord, faultFlag w = faultFlag (w &&& 0x0004#16) ∧ magnitude w = magnitude (w &&& 0x7FF8#16)) ∧
  magnitude 0x8000#16 = 0#12 ∧
  (magnitude 0x0002#16 = 0#12 ∧ faultFlag 0x0002#16 = false) ∧
  (magnitude 0x0001#16 = 0#12 ∧ faultFlag 0x0001#16 = false)

/-- spec/41_word_decoder.md R73: the rejected 13-bit mask agrees with the block on every word with D15 = 0, and on every word
with D15 = 1 is larger by 4096, that is 1024 degrees; the block uses 0x0FFF. -/
def Obligations.RejectedMaskIsNotUsed : Prop :=
  ∀ w : RawWord,
    (magnitude w).setWidth 16 = (w >>> 3) &&& 0x0FFF#16 ∧
    (w.getLsbD 15 = false → ((w >>> 3) &&& 0x1FFF#16).toNat = (magnitude w).toNat) ∧
    (w.getLsbD 15 = true → ((w >>> 3) &&& 0x1FFF#16).toNat = (magnitude w).toNat + 4096 ∧
      (((w >>> 3) &&& 0x1FFF#16).toNat : ℚ) * (1 / 4) = (magnitude w).toNat * (1 / 4) + 1024)

/-! ### The floating-point result (the 64-bit format is log entry 7) -/

/-- The value of q2_to_f64 is exactly m / 4 (spec/41_word_decoder.md R69, R70). Read in binary64, the model's choice of
format (log entry 7). -/
def Obligations.ScalingIsExact : Prop :=
  ∀ m : Magnitude, f64Value (q2ToF64 m) = some ((m.toNat : ℚ) * (1 / 4))

/-- The bit pattern of q2_to_f64 as spec/41_word_decoder.md R70 writes it (binary64, log entry 7): for 2^k ≤ m < 2^(k+1). -/
def Obligations.CelsiusBitPattern : Prop :=
  q2ToF64 0#12 = 0#64 ∧
  ∀ (m : Magnitude) (k : ℕ), 2 ^ k ≤ m.toNat → m.toNat < 2 ^ (k + 1) →
    q2ToF64 m = (BitVec.ofNat 64 (1021 + k) <<< 52) ||| (BitVec.ofNat 64 (m.toNat - 2 ^ k) <<< (52 - k))

/-- No result is negative zero, negative, subnormal, infinite or a NaN, and different magnitudes have different results
(spec/41_word_decoder.md R69, R71; binary64, log entry 7). -/
def Obligations.CelsiusIsAlwaysAnOrdinaryNumber : Prop :=
  (∀ w : RawWord,
    f64Sign (celsiusOfWord w) = 0#1 ∧ f64Exponent (celsiusOfWord w) ≠ 0x7FF#11 ∧
    (f64Exponent (celsiusOfWord w) = 0#11 → celsiusOfWord w = 0#64)) ∧
  (∀ m n : Magnitude, m < n ↔ q2ToF64 m < q2ToF64 n)

/-- spec/41_word_decoder.md R74: whole degrees in D14 to D5, the half in D4, the quarter in D3 (the float read in binary64, log
entry 7). -/
def Obligations.FixedPointView : Prop :=
  (∀ w : RawWord, f64Value (celsiusOfWord w) =
    some (((w.extractLsb' 5 10).toNat : ℚ) + (w.extractLsb' 4 1).toNat * (1 / 2) + (w.extractLsb' 3 1).toNat * (1 / 4))) ∧
  f64Value (celsiusOfWord 0x0190#16) = some (25 / 2)

/-! ### Decoding and encoding -/

/-- Every operation that exists in the configuration is read back from its own word, whatever its operand. -/
def Obligations.DecodeOfEncode : Prop :=
  ∀ (owning : Bool) (i : Instr), i.wellFormed owning = true → decode owning (encode i) = .instr i

/-- spec/30_encoding.md R48: with every row present, a word decodes to an operation exactly when it is the word of that
operation's row under its mask and, where the operation has an operand, ARG is it. -/
def Obligations.DecodeFollowsTheOpcodeTable : Prop :=
  ∀ (w : CmdWord) (i : Instr), decode true w = .instr i ↔
    (∃ r ∈ opcodeTable, r.mnemonic = i.mnemonic ∧ r.matchesWord w = true) ∧
    (∀ x, i.operand? = some x → argField w = x)

/-- spec/30_encoding.md R47, R52: the ARG bits of an operation without operand have no effect of any kind. -/
def Obligations.UnusedArgumentIsIgnored : Prop :=
  ∀ (owning : Bool) (op : BitVec 3) (x y : RawWord), op ≠ 0b001#3 → op ≠ 0b010#3 →
    decode owning (commandWord op x) = decode owning (commandWord op y) ∧
    ∀ s : State, s.handleOwning = owning →
      step (present (commandWord op x) s) = step (present (commandWord op y) s)

/-- spec/30_encoding.md R50: exactly the codes 101, 110, 111, and 100 without HANDLE_OWNING, are invalid, and the machine
refuses a word that has one. -/
def Obligations.ReservedCodesAreRefused : Prop :=
  (∀ (owning : Bool) (op : BitVec 3) (x : RawWord),
    (∃ e, decode owning (commandWord op x) = .invalid e) ↔
      (op = 0b101#3 ∨ op = 0b110#3 ∨ op = 0b111#3 ∨ (op = 0b100#3 ∧ owning = false))) ∧
  (∀ (s : State) (op : BitVec 3) (x : RawWord), op = 0b101#3 ∨ op = 0b110#3 ∨ op = 0b111#3 →
    step (present (commandWord op x) s) = .refused (.reservedCode op)) ∧
  (∀ (s : State) (x : RawWord), s.variant = .borrowed →
    step (present (commandWord 0b100#3 x) s) = .refused .connectReserved)

/-- Sanity: words of spec/95_test_vectors.md 2.6 (VF1 to VF9). -/
def Obligations.SampleCommandWords : Prop :=
  decode false 0x00000#19 = .instr .readRawWord ∧ decode false 0x0FFFF#19 = .instr .readRawWord ∧
  decode false 0x10004#19 = .instr (.isOpenCircuit 0x0004#16) ∧
  decode false 0x2ABCD#19 = .instr (.decodeCelsius 0xABCD#16) ∧
  decode false 0x3FFFF#19 = .instr .readCelsius ∧ decode true 0x40000#19 = .instr .connect ∧
  decode false 0x40000#19 = .invalid .connectReserved ∧ decode true 0x50000#19 = .invalid (.reservedCode 0b101#3) ∧
  decode true 0x60190#19 = .invalid (.reservedCode 0b110#3) ∧ decode true 0x7FFFF#19 = .invalid (.reservedCode 0b111#3)

/-! ### The step -/

/-- A step runs the decoded operation: the presented word leaves the list, everything else is the operation's. -/
def Obligations.StepRunsTheDecodedOperation : Prop :=
  ∀ (s : State) (w : CmdWord) (rest : List CmdWord) (i : Instr),
    s.commands = w :: rest → decode s.handleOwning w = .instr i →
    step s = exec i { s with commands := rest }

/-- The host's hook: in a state of the reset configuration (log entry 2), the instruction the decoder reads from a table word
is the one the next step runs. -/
def Obligations.FetchWordIsRunNext : Prop :=
  ∀ (s : State) (nbits w : ℕ) (i : Instr),
    s.handleOwning = Config.handleOwningAtReset → decodeTableWord nbits w = some i →
    step (s.withFetchWord nbits w) = exec i s

/-- The model's choice (log entry 5): without a command the block waits, and the result port carries nothing. -/
def Obligations.WaitingChangesNothing : Prop :=
  ∀ s : State, s.commands = [] → step s = .next { s with result := none }

/-! ### Each operation -/

/-- spec/40_frame_reader.md R61: READ_RAW_WORD. The result is written out for every reply the rule lists. The LAST clause is the
model's choice (log entry 3): where the state fixes no reply, a free one, numbered by the calls made, always comes; the spec
makes that a fairness premise (D1, U14). -/
def Obligations.ReadRawWordResult : Prop :=
  (∀ (owning : Bool) (arg : RawWord), decode owning (commandWord 0b000#3 arg) = .instr .readRawWord) ∧
  (∀ s : State, s.variant = .handleOwning .unconnected →
    exec .readRawWord s = .next { s with result := some (.error .notConnected) }) ∧
  (∀ (s : State) (ch : ChannelRef) (rest : List (Answer ReadReply)), s.channel = some ch →
    (∀ c, s.readAnswers = .replied (.err c) :: rest →
      exec .readRawWord s = .next (s.afterRead ch rest (.error (.transport c)))) ∧
    (s.readAnswers = .replied (.ok []) :: rest →
      exec .readRawWord s = .next (s.afterRead ch rest (.error .noData))) ∧
    (∀ b0, s.readAnswers = .replied (.ok [b0]) :: rest →
      exec .readRawWord s = .next (s.afterRead ch rest (.error .noData))) ∧
    (∀ b0 b1, s.readAnswers = .replied (.ok [b0, b1]) :: rest →
      exec .readRawWord s =
        .next (s.afterRead ch rest (.ok (.word ((b0.setWidth 16 <<< 8) ||| b1.setWidth 16)))))) ∧
  (∀ (s : State) (ch : ChannelRef), s.channel = some ch → s.readAnswers = [] →
    exec .readRawWord s = .next (s.afterRead ch []
      (match Config.freeReadReply s.calls.length with
       | .err c       => .error (.transport c)
       | .empty       => .error .noData
       | .short _     => .error .noData
       | .frame b0 b1 => .ok (.word ((b0.setWidth 16 <<< 8) ||| b1.setWidth 16)))))

/-- spec/41_word_decoder.md R65: IS_OPEN_CIRCUIT. -/
def Obligations.IsOpenCircuitResult : Prop :=
  (∀ (owning : Bool) (w : RawWord), decode owning (commandWord 0b001#3 w) = .instr (.isOpenCircuit w)) ∧
  (∀ (w : RawWord) (s : State),
    exec (.isOpenCircuit w) s = .next { s with result := some (.ok (.bool (decide (w &&& 0x0004#16 ≠ 0#16)))) }) ∧
  (∀ w : RawWord, decide (w &&& 0x0004#16 ≠ 0#16) = w.getLsbD 2)

/-- spec/41_word_decoder.md R66: DECODE_CELSIUS, with the value of its result, never negative and never above 1023.75; the
fault bit is not tested. The value is that of the bit pattern read in binary64, the model's presumed format (log entry 7; R70,
GK1), which R66 does not name. -/
def Obligations.DecodeCelsiusResult : Prop :=
  (∀ (owning : Bool) (w : RawWord), decode owning (commandWord 0b010#3 w) = .instr (.decodeCelsius w)) ∧
  (∀ (w : RawWord) (s : State), ∃ t : Celsius,
    exec (.decodeCelsius w) s = .next { s with result := some (.ok (.celsius t)) } ∧
    t = q2ToF64 (((w >>> 3) &&& 0x0FFF#16).setWidth 12) ∧
    f64Value t = some ((((w >>> 3) &&& 0x0FFF#16).toNat : ℚ) * (1 / 4)) ∧
    (0 : ℚ) ≤ (((w >>> 3) &&& 0x0FFF#16).toNat : ℚ) * (1 / 4) ∧
    (((w >>> 3) &&& 0x0FFF#16).toNat : ℚ) * (1 / 4) ≤ 1023 + 3 / 4)

/-- spec/41_word_decoder.md R67: READ_CELSIUS, for every reply the rule lists. The LAST clause is the model's choice (log entry
3): where the state fixes no reply, a free one, numbered by the calls made, always comes; the spec makes that a fairness
premise (D1, U14). -/
def Obligations.ReadCelsiusResult : Prop :=
  (∀ (owning : Bool) (arg : RawWord), decode owning (commandWord 0b011#3 arg) = .instr .readCelsius) ∧
  (∀ s : State, s.variant = .handleOwning .unconnected →
    exec .readCelsius s = .next { s with result := some (.error .notConnected) }) ∧
  (∀ (s : State) (ch : ChannelRef) (rest : List (Answer ReadReply)), s.channel = some ch →
    (∀ c, s.readAnswers = .replied (.err c) :: rest →
      exec .readCelsius s = .next (s.afterRead ch rest (.error (.transport c)))) ∧
    (s.readAnswers = .replied (.ok []) :: rest →
      exec .readCelsius s = .next (s.afterRead ch rest (.error .noData))) ∧
    (∀ b0, s.readAnswers = .replied (.ok [b0]) :: rest →
      exec .readCelsius s = .next (s.afterRead ch rest (.error .noData))) ∧
    (∀ b0 b1, s.readAnswers = .replied (.ok [b0, b1]) :: rest →
      let w : RawWord := (b0.setWidth 16 <<< 8) ||| b1.setWidth 16
      exec .readCelsius s = .next (s.afterRead ch rest
        (if w &&& 0x0004#16 ≠ 0#16 then .error .openCircuit
         else .ok (.celsius (q2ToF64 (((w >>> 3) &&& 0x0FFF#16).setWidth 12))))))) ∧
  (∀ (s : State) (ch : ChannelRef), s.channel = some ch → s.readAnswers = [] →
    exec .readCelsius s = .next (s.afterRead ch []
      (match Config.freeReadReply s.calls.length with
       | .err c       => .error (.transport c)
       | .empty       => .error .noData
       | .short _     => .error .noData
       | .frame b0 b1 =>
         let w : RawWord := (b0.setWidth 16 <<< 8) ||| b1.setWidth 16
         if w &&& 0x0004#16 ≠ 0#16 then .error .openCircuit
         else .ok (.celsius (q2ToF64 (((w >>> 3) &&& 0x0FFF#16).setWidth 12))))))

/-- spec/42_connection.md R77, with the call of R76 and the settings of spec/10_state.md R19 (`State.afterOpen` writes them
out): CONNECT from Unconnected, for both replies of the open-and-configure step. The LAST clause is the model's choice (log
entry 3): where the state fixes no reply, a free one, numbered by the calls made, always comes; the spec makes that a fairness
premise (D1, U14). -/
def Obligations.ConnectResult : Prop :=
  (∀ arg : RawWord, decode true (commandWord 0b100#3 arg) = .instr .connect) ∧
  (∀ (s : State) (rest : List (Answer OpenReply)), s.variant = .handleOwning .unconnected →
    (∀ c, s.openAnswers = .replied (.err c) :: rest →
      exec .connect s = .next (s.afterOpen rest (.handleOwning .unconnected) (.error (.transport c)))) ∧
    (∀ h, s.openAnswers = .replied (.ok h) :: rest →
      exec .connect s = .next (s.afterOpen rest (.handleOwning (.connected h)) (.ok .nothing)))) ∧
  (∀ s : State, s.variant = .handleOwning .unconnected → s.openAnswers = [] →
    exec .connect s = .next (match Config.freeOpenReply s.calls.length with
      | .err c => s.afterOpen [] (.handleOwning .unconnected) (.error (.transport c))
      | .ok h  => s.afterOpen [] (.handleOwning (.connected h)) (.ok .nothing)))

/-- spec/42_connection.md R79: CONNECT while connected is refused, neither replacing the handle nor keeping it. -/
def Obligations.ConnectWhileConnectedIsRefused : Prop :=
  ∀ (s : State) (h : Handle), s.variant = .handleOwning (.connected h) → s.reconnect = .notAdmitted →
    exec .connect s = .refused .connectWhileConnected

/-- With the named parameter RECONNECT set to the example of spec/92_eei_decisions.md D12 (log entry 8, the model's reading):
CONNECT while connected replaces the handle on success and keeps the old one on failure. Where the state fixes no reply the
free one comes (log entry 3). -/
def Obligations.ReconnectReplacesOnSuccess : Prop :=
  (∀ (s : State) (h : Handle) (rest : List (Answer OpenReply)), s.variant = .handleOwning (.connected h) →
    s.reconnect = .replaceOnSuccess →
    (∀ c, s.openAnswers = .replied (.err c) :: rest →
      exec .connect s = .next (s.afterOpen rest (.handleOwning (.connected h)) (.error (.transport c)))) ∧
    (∀ h', s.openAnswers = .replied (.ok h') :: rest →
      exec .connect s = .next (s.afterOpen rest (.handleOwning (.connected h')) (.ok .nothing)))) ∧
  (∀ (s : State) (h : Handle), s.variant = .handleOwning (.connected h) → s.reconnect = .replaceOnSuccess →
    s.openAnswers = [] →
    exec .connect s = .next (match Config.freeOpenReply s.calls.length with
      | .err c => s.afterOpen [] (.handleOwning (.connected h)) (.error (.transport c))
      | .ok h' => s.afterOpen [] (.handleOwning (.connected h')) (.ok .nothing)))

/-- spec/20_memory.md R28: a reply of more than 2 bytes is refused by both reads, never truncated. -/
def Obligations.OverlongReplyIsRefused : Prop :=
  ∀ (s : State) (i : Instr) (ch : ChannelRef) (bytes : List Byte) (rest : List (Answer ReadReply)),
    IsRead i → s.channel = some ch → s.readAnswers = .replied (.ok bytes) :: rest → 2 < bytes.length →
    exec i s = .refused (.overlongReply bytes.length)

/-- spec/70_reset_and_hazards.md R109, U14: an operation whose call is never answered never returns (log entry 9). CONNECT is
taken wherever it is admitted: from Unconnected, and while Connected with RECONNECT = replaceOnSuccess (log entry 8). -/
def Obligations.UnansweredCallNeverReturns : Prop :=
  (∀ (s : State) (i : Instr) (ch : ChannelRef) (rest : List (Answer ReadReply)),
    IsRead i → s.channel = some ch → s.readAnswers = .silent :: rest → exec i s = .fault .operationNeverReturns) ∧
  (∀ (s : State) (rest : List (Answer OpenReply)),
    ConnectIsAdmitted s → s.openAnswers = .silent :: rest →
    exec .connect s = .fault .operationNeverReturns)

/-! ### The whole machine -/

/-- spec/10_state.md R15: what `CONN` is to a read, in each variant. -/
def Obligations.ConnDecidesTheChannel : Prop :=
  ∀ s : State,
    (s.variant = .borrowed → s.handleOwning = false ∧ s.channel = some .attached) ∧
    (s.variant = .handleOwning .unconnected → s.handleOwning = true ∧ s.channel = none) ∧
    (∀ h, s.variant = .handleOwning (.connected h) → s.handleOwning = true ∧ s.channel = some (.owned h))

/-- Every operation that exists, on admitted answers, completes with exactly one result, in every state (spec/00_scope.md R6,
spec/60_exceptions.md R80). Two parts are the model's choice: that it completes where the state fixes no answer, because a free
reply always comes (log entry 3; the spec makes that a fairness premise), and that CONNECT completes while Connected with
RECONNECT = replaceOnSuccess (log entry 8). -/
def Obligations.AdmittedOperationsComplete : Prop :=
  ∀ (i : Instr) (s : State),
    i.wellFormed s.handleOwning = true →
    (IsRead i → s.channel ≠ none → ReadAnswerIsAdmitted s.readAnswers) →
    (i = .connect → OpenAnswerIsAdmitted s.openAnswers ∧
      (s.variant = .handleOwning .unconnected ∨ s.reconnect = .replaceOnSuccess)) →
    ∃ t r, exec i s = .next t ∧ t.result = some r

/-- Nothing else stops in the model: each refusal and each fault of an operation has one cause. The spec asks for the three
refusals (spec/20_memory.md R28, spec/30_encoding.md R50, spec/42_connection.md R79) and says that a channel may never answer
(spec/70_reset_and_hazards.md R109). That there is no other stop is in part the model's choice: with no answer listed nothing
stops, because a free reply always comes and has one of the four shapes (log entry 3); CONNECT while Connected with
RECONNECT = replaceOnSuccess is not refused (log entry 8); and a listed silence is the only fault (log entry 9). -/
def Obligations.StopsHaveTheirCause : Prop :=
  (∀ (i : Instr) (s : State) (r : Refusal), exec i s = .refused r →
    (r = .connectReserved ∧ i = .connect ∧ s.variant = .borrowed) ∨
    (r = .connectWhileConnected ∧ i = .connect ∧ s.reconnect = .notAdmitted ∧
      ∃ h, s.variant = .handleOwning (.connected h)) ∨
    (∃ bytes rest, r = .overlongReply bytes.length ∧ IsRead i ∧ 2 < bytes.length ∧
      s.readAnswers = .replied (.ok bytes) :: rest)) ∧
  (∀ (i : Instr) (s : State) (r : Fault), exec i s = .fault r →
    (IsRead i ∧ s.readAnswers.head? = some .silent) ∨ (i = .connect ∧ s.openAnswers.head? = some .silent))

/-- spec/10_state.md R25: which operation touches what. No operation changes the host's list or RECONNECT; only CONNECT writes
the variant or takes an open answer; only reads take a read answer; the two decode operations change the result alone. -/
def Obligations.EachOperationTouchesOnlyItsState : Prop :=
  ∀ (i : Instr) (s t : State), exec i s = .next t →
    t.commands = s.commands ∧ t.reconnect = s.reconnect ∧
    (i ≠ .connect → t.variant = s.variant ∧ t.openAnswers = s.openAnswers) ∧
    (¬ IsRead i → t.readAnswers = s.readAnswers) ∧
    (¬ IsRead i → i ≠ .connect → t.calls = s.calls)

/-- spec/10_state.md R15: `CONN` is written by CONNECT only, and only when it succeeds; what it then holds is a handle. -/
def Obligations.OnlyASuccessfulConnectWritesConn : Prop :=
  ∀ (i : Instr) (s t : State), exec i s = .next t → t.variant ≠ s.variant →
    i = .connect ∧ t.result = some (.ok .nothing) ∧ s.variant ≠ .borrowed ∧
    ∃ h, t.variant = .handleOwning (.connected h)

/-- spec/42_connection.md R78: no step leaves `Connected`, whatever its result, and none changes HANDLE_OWNING; without a
RECONNECT the handle stays the same one. -/
def Obligations.ConnectedStaysConnected : Prop :=
  ∀ s t : State, step s = .next t →
    t.handleOwning = s.handleOwning ∧ t.reconnect = s.reconnect ∧
    ∀ h, s.variant = .handleOwning (.connected h) →
      (∃ h', t.variant = .handleOwning (.connected h')) ∧
      (s.reconnect = .notAdmitted → t.variant = .handleOwning (.connected h))

/-- The invariant `State.Inv` is kept by every step, from every state that has it. Its temperature clause reads the result port
in binary64, the model's presumed format (log entry 7); its three clauses about calls are about the history, the model's own
field (log entry 4), and the one about the handle is for RECONNECT not admitted (log entry 8). -/
def Obligations.StepKeepsTheInvariant : Prop :=
  ∀ s t : State, s.Inv → step s = .next t → t.Inv

/-- The invariant holds after reset, for every HANDLE_OWNING and RECONNECT (log entries 2 and 8). The history is empty at reset
(log entry 4); the temperature clause, which reads binary64 (log entry 7), finds no result there. -/
def Obligations.InvariantAtReset : Prop :=
  State.reset.Inv ∧ ∀ (owning : Bool) (r : Reconnect), (State.resetWith owning r).Inv

/-- spec/20_memory.md R36, spec/40_frame_reader.md R60: an operation adds at most one call at the end of the history: a read
one `ChanRead(2)` on the channel it has and none when it has none, CONNECT one `ChanOpen(DEVICE_PATH)` with 8 bits per word,
1 MHz and mode 1 (spec/10_state.md R19, spec/42_connection.md R76), a decode operation none. -/
def Obligations.AtMostOneCallPerOperation : Prop :=
  ∀ (i : Instr) (s t : State), exec i s = .next t →
    (IsRead i → t.calls = s.calls ++ (match s.channel with | none => [] | some ch => [.read ch 2])) ∧
    (i = .connect → t.calls = s.calls ++ [.open_ Config.devicePath
      { bitsPerWord := 8, maxClockHz := 1000000, cpol := false, cpha := true }]) ∧
    (¬ IsRead i → i ≠ .connect → t.calls = s.calls)

/-- spec/60_exceptions.md R81: an operation that completes answers with one of the results its row allows, and the codes are
the rule's. -/
def Obligations.OnlyTheAllowedResults : Prop :=
  (∀ (i : Instr) (s t : State), exec i s = .next t → ∃ r, t.result = some r ∧ MayAnswer i r) ∧
  (∀ c, (OpResult.error (.transport c)).status = 0b001#3) ∧ (OpResult.error .noData).status = 0b010#3 ∧
  (OpResult.error .openCircuit).status = 0b011#3 ∧ (OpResult.error .notConnected).status = 0b100#3 ∧
  (∀ p, (OpResult.ok p).status = 0b000#3)

/-- spec/60_exceptions.md R85, R87: NOT_CONNECTED is decided from `CONN` alone, before anything else, without a call. -/
def Obligations.NotConnectedComesFirst : Prop :=
  ∀ (i : Instr) (s t : State), exec i s = .next t →
    (t.result = some (.error .notConnected) ↔ IsRead i ∧ s.variant = .handleOwning .unconnected) ∧
    (t.result = some (.error .notConnected) → t = { s with result := some (.error .notConnected) })

/-- spec/60_exceptions.md R84: OPEN_CIRCUIT is raised by READ_CELSIUS only, exactly when the complete word has D2 set;
READ_RAW_WORD returns that word as a success and IS_OPEN_CIRCUIT returns true as a success. -/
def Obligations.OpenCircuitExactlyOnAFaultyWord : Prop :=
  (∀ s t : State, s.channel ≠ none → exec .readCelsius s = .next t →
    (t.result = some (.error .openCircuit) ↔
      ∃ b0 b1, s.nextReply = some (.frame b0 b1) ∧ assembleWord b0 b1 &&& 0x0004#16 ≠ 0#16)) ∧
  (∀ (i : Instr) (s t : State), exec i s = .next t → t.result = some (.error .openCircuit) →
    i = .readCelsius ∧ ∃ w : RawWord, w &&& 0x0004#16 ≠ 0#16 ∧
      exec .readRawWord s = .next { t with result := some (.ok (.word w)) } ∧
      exec (.isOpenCircuit w) s = .next { s with result := some (.ok (.bool true)) })

/-- spec/60_exceptions.md R88, R89: an operation that ends in an error leaves the block's state as it was; all it did is its
one call, which took its answer. -/
def Obligations.ErrorsLeaveTheStateAlone : Prop :=
  ∀ (i : Instr) (s t : State) (e : OpError), exec i s = .next t → t.result = some (.error e) →
    t = { s with calls := t.calls, readAnswers := t.readAnswers, openAnswers := t.openAnswers,
                 result := some (.error e) } ∧
    (t.calls = s.calls ∨ ∃ c, t.calls = s.calls ++ [c]) ∧
    (t.readAnswers = s.readAnswers ∨ t.readAnswers = s.readAnswers.tail) ∧
    (t.openAnswers = s.openAnswers ∨ t.openAnswers = s.openAnswers.tail)

/-- spec/10_state.md R17: no operation reads the result of an earlier one. -/
def Obligations.NoOperationReadsTheResultPort : Prop :=
  ∀ (i : Instr) (s : State) (r : Option OpResult), exec i { s with result := r } = exec i s

/-- spec/41_word_decoder.md R64: the decode operations are functions of the word alone: one result for each word, the same in
every state, and nothing but the result changes. -/
def Obligations.DecodeOperationsArePure : Prop :=
  ∀ w : RawWord,
    (∃ r, ∀ s : State, exec (.isOpenCircuit w) s = .next { s with result := some (.ok r) }) ∧
    (∃ r, ∀ s : State, exec (.decodeCelsius w) s = .next { s with result := some (.ok r) })

/-- spec/30_encoding.md R56: READ_CELSIUS is the host script READ_RAW_WORD, IS_OPEN_CIRCUIT, DECODE_CELSIUS with one
transaction: whenever READ_RAW_WORD completes, READ_CELSIUS completes in the same state but for the result, which is the
script's. Where READ_RAW_WORD stops, READ_CELSIUS stops in the same way. -/
def Obligations.ReadCelsiusComposesTheOthers : Prop :=
  (∀ s u : State, exec .readRawWord s = .next u →
    (∀ w, u.result = some (.ok (.word w)) →
      (exec (.isOpenCircuit w) u = .next { u with result := some (.ok (.bool true)) } ∧
        exec .readCelsius s = .next { u with result := some (.error .openCircuit) }) ∨
      (exec (.isOpenCircuit w) u = .next { u with result := some (.ok (.bool false)) } ∧
        exec .readCelsius s = exec (.decodeCelsius w) u)) ∧
    (∀ e, u.result = some (.error e) → exec .readCelsius s = .next u) ∧
    (∃ r, u.result = some r ∧ MayAnswer .readRawWord r)) ∧
  (∀ (s : State) (r : Refusal), exec .readRawWord s = .refused r ↔ exec .readCelsius s = .refused r) ∧
  (∀ (s : State) (r : Fault), exec .readRawWord s = .fault r ↔ exec .readCelsius s = .fault r)

/-- spec/30_encoding.md R57, spec/10_state.md R15: the two shapes of the block compute the same things. What a borrowed-channel
block does, a connected handle-owning block does too, and the other way round: the next states are equal but for the variant
and for the channel of the read's one call, which is the attached one in the first and the block's own handle in the second.
Where the state fixes no answer this rests on the model's choice that a free reply is numbered by the calls made and by
nothing else (log entry 3). -/
def Obligations.BothShapesComputeTheSame : Prop :=
  ∀ (i : Instr) (s : State) (h : Handle), i ≠ .connect → s.variant = .borrowed →
    let c : State := { s with variant := .handleOwning (.connected h) }
    (∀ t, exec i s = .next t → t.variant = .borrowed ∧ t.calls = s.calls ++ callsOn .attached i ∧
      exec i c = .next { t with variant := .handleOwning (.connected h), calls := s.calls ++ callsOn (.owned h) i }) ∧
    (∀ u, exec i c = .next u → u.variant = .handleOwning (.connected h) ∧ u.calls = s.calls ++ callsOn (.owned h) i ∧
      exec i s = .next { u with variant := .borrowed, calls := s.calls ++ callsOn .attached i }) ∧
    (∀ r, exec i s = .refused r ↔ exec i c = .refused r) ∧ (∀ r, exec i s = .fault r ↔ exec i c = .fault r)

/-- spec/20_memory.md R36: along any run, from any state, the calls to the environment come one after the other, at most one
for each step, and nothing once in the history is dropped, merged or reordered; every call the run makes is one the block can
make. The history is the model's own field, which R36 allows (log entry 4). -/
def Obligations.RunsOnlyExtendTheHistory : Prop :=
  ∀ (k : ℕ) (s t : State), Sys2Proof.core.run k s = .next t →
    ∃ made : List ChanCall, t.calls = s.calls ++ made ∧ made.length ≤ k ∧ (∀ c ∈ made, CallFits s.variant c)

/-- spec/60_exceptions.md R82: causes are passed on without looking inside. Renaming every cause by any function before an
operation is renaming it after. The state must fix the answer the operation takes, if it takes one: a read that has a channel
takes a read answer, an admitted CONNECT an open answer, a decode operation none. -/
def Obligations.CausesAreOpaque : Prop :=
  ∀ (f : Cause → Cause) (i : Instr) (s : State),
    (IsRead i → s.channel ≠ none → s.readAnswers ≠ []) → (i = .connect → ConnectIsAdmitted s → s.openAnswers ≠ []) →
    exec i (s.renameCauses f) = renameOutcome f (exec i s)

/-- spec/42_connection.md R77, spec/70_reset_and_hazards.md R100: after a CONNECT that succeeded, a read makes its transaction
on a handle; after one that failed from Unconnected, a read still answers NOT_CONNECTED without one. -/
def Obligations.ConnectIsTheCureForNotConnected : Prop :=
  ∀ s t : State, exec .connect s = .next t →
    (t.result = some (.ok .nothing) → ∃ h, t.channel = some (.owned h) ∧
      ∀ (i : Instr) (u : State), IsRead i → exec i t = .next u → u.calls = t.calls ++ [.read (.owned h) 2]) ∧
    (t.result ≠ some (.ok .nothing) → s.variant = .handleOwning .unconnected →
      ∀ i : Instr, IsRead i → exec i t = .next { t with result := some (.error .notConnected) })

/-! ### Reset -/

/-- spec/70_reset_and_hazards.md R98 with the table of spec/10_state.md R24: after reset `CONN` is Unconnected when
HANDLE_OWNING is true and does not exist when it is false, and the result port has no value. -/
def Obligations.ResetLeavesUnconnected : Prop :=
  ∀ r : Reconnect,
    (State.resetWith true r).variant = .handleOwning .unconnected ∧ (State.resetWith true r).result = none ∧
    (State.resetWith false r).variant = .borrowed ∧ (State.resetWith false r).channel = some .attached ∧
    (State.resetWith false r).result = none

/-- The model's reset state in full (log entries 2 to 5 and 8): the handle-owning block, RECONNECT not admitted, nothing presented,
answered or called. -/
def Obligations.ResetStateOfTheModel : Prop :=
  State.reset = { variant := .handleOwning .unconnected, reconnect := .notAdmitted, commands := [], readAnswers := [],
                  openAnswers := [], calls := [], result := none }

/-- spec/70_reset_and_hazards.md R99: the first operation after reset may be any: the decode operations work at once in either
configuration; with HANDLE_OWNING reads answer NOT_CONNECTED, as they do in any state until a CONNECT has succeeded, and
CONNECT completes; without it reads go straight to the channel. That CONNECT and the borrowed-channel reads complete right
after reset is the model's choice (log entry 3): no answer is listed at reset, and a free reply always comes. -/
def Obligations.FirstOperationAfterReset : Prop :=
  (∀ (owning : Bool) (r : Reconnect) (w : RawWord), ∃ p q,
    exec (.isOpenCircuit w) (State.resetWith owning r) =
      .next { State.resetWith owning r with result := some (.ok (.bool p)) } ∧
    exec (.decodeCelsius w) (State.resetWith owning r) =
      .next { State.resetWith owning r with result := some (.ok (.celsius q)) }) ∧
  (∀ (r : Reconnect) (i : Instr), IsRead i →
    exec i (State.resetWith true r) = .next { State.resetWith true r with result := some (.error .notConnected) }) ∧
  (∀ (s t : State) (i j : Instr), s.variant = .handleOwning .unconnected → exec i s = .next t →
    t.result ≠ some (.ok .nothing) → IsRead j →
    exec j t = .next { t with result := some (.error .notConnected) }) ∧
  (∀ r : Reconnect, ∃ t, exec .connect (State.resetWith true r) = .next t) ∧
  (∀ (r : Reconnect) (i : Instr), IsRead i → ∃ t,
    exec i (State.resetWith false r) = .next t ∧ t.calls = [.read .attached 2])
end

