-- ==== Sys2Proof/Laws/Decode.lean ====
section
/-! SUPPORT. The command word as its two fields, and decoding as a function of them. -/

namespace Sys2Proof

/-- OP of a word put together from its fields. -/
theorem opField_commandWord (op : BitVec 3) (x : RawWord) : opField (commandWord op x) = op := by
  unfold opField commandWord
  ext i hi
  have h19 : 16 + i < 19 := by omega
  simp [hi, h19]

/-- ARG of a word put together from its fields. -/
theorem argField_commandWord (op : BitVec 3) (x : RawWord) : argField (commandWord op x) = x := by
  unfold argField commandWord
  ext i hi
  have h19 : i < 19 := by omega
  simp [hi, h19]

/-- A word masked to its OP field. -/
theorem commandWord_and_mask (op : BitVec 3) (x : RawWord) :
    commandWord op x &&& 0x70000#19 = commandWord op 0x0000#16 := by
  have hm : ∀ i : Fin 19, (0x70000#19)[i.val] = decide (16 ≤ i.val) := by decide
  unfold commandWord
  ext i hi
  have h3 : i - 16 < 3 := by omega
  have hmi := hm ⟨i, hi⟩
  by_cases h : i < 16
  · have hn : ¬ 16 ≤ i := by omega
    simp_all
  · have hn : 16 ≤ i := by omega
    simp_all

/-- A command word is its two fields put together (spec/30_encoding.md R47). -/
theorem commandWord_fields (w : CmdWord) : commandWord (opField w) (argField w) = w := by
  unfold commandWord opField argField
  ext i hi
  by_cases h : i < 16
  · simp [h, BitVec.getLsbD_eq_getElem hi]
  · have h3 : i - 16 < 3 := by omega
    have hi' : 16 + (i - 16) = i := by omega
    simp [h, h3, Nat.le_of_not_lt h, hi', BitVec.getLsbD_eq_getElem hi]

/-- Decoding looks at the operation code and, for two operations, at ARG. -/
theorem decode_commandWord (owning : Bool) (op : BitVec 3) (x : RawWord) :
    decode owning (commandWord op x) =
      if op = 0b000#3 then .instr .readRawWord
      else if op = 0b001#3 then .instr (.isOpenCircuit x)
      else if op = 0b010#3 then .instr (.decodeCelsius x)
      else if op = 0b011#3 then .instr .readCelsius
      else if op = 0b100#3 then (if owning then .instr .connect else .invalid .connectReserved)
      else .invalid (.reservedCode op) := by
  unfold decode
  rw [opField_commandWord, argField_commandWord]
  have h : op = 0#3 ∨ op = 1#3 ∨ op = 2#3 ∨ op = 3#3 ∨ op = 4#3 ∨ op = 5#3 ∨ op = 6#3 ∨ op = 7#3 := by
    revert op; decide
  rcases h with rfl | rfl | rfl | rfl | rfl | rfl | rfl | rfl <;> rfl

end Sys2Proof
end

