-- ==== Sys2Proof/Laws/State.lean ====
section
/-! SUPPORT. One lemma per field per update of the state, so that no later proof unfolds a record update. -/

namespace Sys2Proof.Machine

@[simp] theorem ret_variant (p : Payload) (s : State) : (ret p s).variant = s.variant := rfl
@[simp] theorem ret_reconnect (p : Payload) (s : State) : (ret p s).reconnect = s.reconnect := rfl
@[simp] theorem ret_commands (p : Payload) (s : State) : (ret p s).commands = s.commands := rfl
@[simp] theorem ret_readAnswers (p : Payload) (s : State) : (ret p s).readAnswers = s.readAnswers := rfl
@[simp] theorem ret_openAnswers (p : Payload) (s : State) : (ret p s).openAnswers = s.openAnswers := rfl
@[simp] theorem ret_calls (p : Payload) (s : State) : (ret p s).calls = s.calls := rfl
@[simp] theorem ret_result (p : Payload) (s : State) : (ret p s).result = some (.ok p) := rfl

@[simp] theorem raise_variant (e : OpError) (s : State) : (raise e s).variant = s.variant := rfl
@[simp] theorem raise_reconnect (e : OpError) (s : State) : (raise e s).reconnect = s.reconnect := rfl
@[simp] theorem raise_commands (e : OpError) (s : State) : (raise e s).commands = s.commands := rfl
@[simp] theorem raise_readAnswers (e : OpError) (s : State) : (raise e s).readAnswers = s.readAnswers := rfl
@[simp] theorem raise_openAnswers (e : OpError) (s : State) : (raise e s).openAnswers = s.openAnswers := rfl
@[simp] theorem raise_calls (e : OpError) (s : State) : (raise e s).calls = s.calls := rfl
@[simp] theorem raise_result (e : OpError) (s : State) : (raise e s).result = some (.error e) := rfl

@[simp] theorem record_variant (c : ChanCall) (s : State) : (record c s).variant = s.variant := rfl
@[simp] theorem record_reconnect (c : ChanCall) (s : State) : (record c s).reconnect = s.reconnect := rfl
@[simp] theorem record_commands (c : ChanCall) (s : State) : (record c s).commands = s.commands := rfl
@[simp] theorem record_readAnswers (c : ChanCall) (s : State) : (record c s).readAnswers = s.readAnswers := rfl
@[simp] theorem record_openAnswers (c : ChanCall) (s : State) : (record c s).openAnswers = s.openAnswers := rfl
@[simp] theorem record_calls (c : ChanCall) (s : State) : (record c s).calls = s.calls ++ [c] := rfl
@[simp] theorem record_result (c : ChanCall) (s : State) : (record c s).result = s.result := rfl

@[simp] theorem idle_variant (s : State) : (idle s).variant = s.variant := rfl
@[simp] theorem idle_reconnect (s : State) : (idle s).reconnect = s.reconnect := rfl
@[simp] theorem idle_commands (s : State) : (idle s).commands = s.commands := rfl
@[simp] theorem idle_readAnswers (s : State) : (idle s).readAnswers = s.readAnswers := rfl
@[simp] theorem idle_openAnswers (s : State) : (idle s).openAnswers = s.openAnswers := rfl
@[simp] theorem idle_calls (s : State) : (idle s).calls = s.calls := rfl
@[simp] theorem idle_result (s : State) : (idle s).result = none := rfl

@[simp] theorem present_variant (w : CmdWord) (s : State) : (present w s).variant = s.variant := rfl
@[simp] theorem present_reconnect (w : CmdWord) (s : State) : (present w s).reconnect = s.reconnect := rfl
@[simp] theorem present_commands (w : CmdWord) (s : State) : (present w s).commands = w :: s.commands := rfl
@[simp] theorem present_readAnswers (w : CmdWord) (s : State) : (present w s).readAnswers = s.readAnswers := rfl
@[simp] theorem present_openAnswers (w : CmdWord) (s : State) : (present w s).openAnswers = s.openAnswers := rfl
@[simp] theorem present_calls (w : CmdWord) (s : State) : (present w s).calls = s.calls := rfl
@[simp] theorem present_result (w : CmdWord) (s : State) : (present w s).result = s.result := rfl
@[simp] theorem present_handleOwning (w : CmdWord) (s : State) : (present w s).handleOwning = s.handleOwning := rfl

@[simp] theorem resultOf_ok (p : Payload) : resultOf (.ok p) = .ok p := rfl
@[simp] theorem resultOf_error (e : OpError) : resultOf (.error e) = .error e := rfl

/-- Ending an operation changes the result port only. -/
theorem conclude_eq (r : Except OpError Payload) (s : State) :
    conclude r s = { s with result := some (resultOf r) } := by
  cases r <;> rfl

theorem channel_of_borrowed (s : State) (h : s.variant = .borrowed) : s.channel = some .attached := by
  simp [State.channel, h]

theorem channel_of_unconnected (s : State) (h : s.variant = .handleOwning .unconnected) : s.channel = none := by
  simp [State.channel, h]

theorem channel_of_connected (s : State) (x : Handle) (h : s.variant = .handleOwning (.connected x)) :
    s.channel = some (.owned x) := by
  simp [State.channel, h]

/-- A read has no channel exactly when `CONN` exists and is Unconnected (spec/10_state.md R15). -/
theorem channel_eq_none_iff (s : State) : s.channel = none ↔ s.variant = .handleOwning .unconnected := by
  unfold State.channel
  split <;> simp_all

end Sys2Proof.Machine
end

