-- ==== Sys2Proof/Laws/Ops.lean ====
section
/-! SUPPORT. One lemma per shared operation that says everything it can do: the calls to the environment, the common part of
the reads, the body of CONNECT, and then a whole operation and a whole step. Later proofs cite these and do not unfold. -/

namespace Sys2Proof.Machine

/-- A `ChanRead(2)` that is answered has recorded one call and, if the answer was not free, taken it; nothing else. -/
theorem chanRead_answered {ch : ChannelRef} {s t : State} {r : FrameReply} (h : chanRead ch s = .answered r t) :
    s.nextReply = some r ∧ t = { s with calls := s.calls ++ [.read ch 2], readAnswers := s.readAnswers.tail } := by
  unfold chanRead at h
  unfold State.nextReply
  split at h
  · next heq => cases h; simp [heq, record, Config.frameBytes]
  · cases h
  · next heq =>
    split at h
    · next hs => cases h; simp [heq, hs, record, Config.frameBytes]
    · cases h

/-- A `ChanRead(2)` whose next reply is within the contract is answered with it. -/
theorem chanRead_of_nextReply {ch : ChannelRef} {s : State} {r : FrameReply} (h : s.nextReply = some r) :
    chanRead ch s = .answered r { s with calls := s.calls ++ [.read ch 2], readAnswers := s.readAnswers.tail } := by
  unfold State.nextReply at h
  unfold chanRead
  split at h
  · next heq => cases h; simp [heq, record, Config.frameBytes]
  · cases h
  · next heq => simp [heq, h, record, Config.frameBytes]

/-- A reply is over-long exactly when it carries more than 2 bytes (spec/20_memory.md R28). -/
theorem replyShape?_eq_none_iff (r : ReadReply) : replyShape? r = none ↔ ∃ bytes, r = .ok bytes ∧ 2 < bytes.length := by
  rcases r with c | (_ | ⟨b0, _ | ⟨b1, _ | ⟨b2, bs⟩⟩⟩) <;> simp [replyShape?]

/-- A `ChanRead(2)` that is refused got a reply of more than 2 bytes. -/
theorem chanRead_overlong {ch : ChannelRef} {s : State} {n : ℕ} (h : chanRead ch s = .overlong n) :
    ∃ bytes rest, s.readAnswers = .replied (.ok bytes) :: rest ∧ n = bytes.length ∧ 2 < bytes.length := by
  unfold chanRead at h
  split at h
  · cases h
  · cases h
  · next rest heq =>
    split at h
    · cases h
    · next hs =>
      obtain ⟨bytes, rfl, hl⟩ := (replyShape?_eq_none_iff _).1 hs
      cases h
      exact ⟨bytes, rest, heq, rfl, hl⟩

/-- A `ChanRead(2)` that is never answered met a silent channel. -/
theorem chanRead_never {ch : ChannelRef} {s : State} (h : chanRead ch s = .never) :
    s.readAnswers.head? = some .silent := by
  unfold chanRead at h
  split at h
  · cases h
  · next heq => simp [heq]
  · split at h <;> cases h

/-- What a read does when it completes: NOT_CONNECTED with nothing else changed, or one call, its answer taken, and the
result of the reply. -/
theorem readThen_next {eval : FrameReply → Except OpError Payload} {s t : State} (h : readThen eval s = .next t) :
    (s.channel = none ∧ t = { s with result := some (.error .notConnected) }) ∨
    (∃ ch r, s.channel = some ch ∧ s.nextReply = some r ∧
      t = { s with calls := s.calls ++ [.read ch 2], readAnswers := s.readAnswers.tail,
                   result := some (resultOf (eval r)) }) := by
  unfold readThen at h
  split at h
  · next hc => cases h; exact .inl ⟨hc, rfl⟩
  · next ch hc =>
    split at h
    · next r u hr =>
      cases h
      obtain ⟨hn, rfl⟩ := chanRead_answered hr
      exact .inr ⟨ch, r, hc, hn, conclude_eq _ _⟩
    · cases h
    · cases h

/-- A read without a channel. -/
theorem readThen_of_no_channel (eval : FrameReply → Except OpError Payload) {s : State} (h : s.channel = none) :
    readThen eval s = .next { s with result := some (.error .notConnected) } := by
  simp [readThen, h, raise]

/-- A read with a channel and a reply within the contract. -/
theorem readThen_of_nextReply (eval : FrameReply → Except OpError Payload) {s : State} {ch : ChannelRef} {r : FrameReply}
    (hc : s.channel = some ch) (hr : s.nextReply = some r) :
    readThen eval s = .next { s with calls := s.calls ++ [.read ch 2], readAnswers := s.readAnswers.tail,
                                     result := some (resultOf (eval r)) } := by
  simp [readThen, hc, chanRead_of_nextReply hr, conclude_eq]

/-- A read refuses only an over-long reply. -/
theorem readThen_refused {eval : FrameReply → Except OpError Payload} {s : State} {r : Refusal}
    (h : readThen eval s = .refused r) :
    ∃ bytes rest, s.readAnswers = .replied (.ok bytes) :: rest ∧ r = .overlongReply bytes.length ∧ 2 < bytes.length := by
  unfold readThen at h
  split at h
  · cases h
  · split at h
    · cases h
    · next hr =>
      cases h
      obtain ⟨bytes, rest, ha, rfl, hl⟩ := chanRead_overlong hr
      exact ⟨bytes, rest, ha, rfl, hl⟩
    · cases h

/-- A read faults only on a silent channel. -/
theorem readThen_fault {eval : FrameReply → Except OpError Payload} {s : State} {r : Fault}
    (h : readThen eval s = .fault r) : s.readAnswers.head? = some .silent := by
  unfold readThen at h
  split at h
  · cases h
  · split at h
    · cases h
    · cases h
    · next hr => exact chanRead_never hr

/-- What the body of CONNECT does when it completes: one call, its answer taken, and either the transport error with the
variant as it was, or the handle stored. -/
theorem openThenConnect_next {s t : State} (h : openThenConnect s = .next t) :
    (∃ c, t = { s with calls := s.calls ++ [.open_ Config.devicePath Config.spi], openAnswers := s.openAnswers.tail,
                       result := some (.error (.transport c)) }) ∨
    (∃ x, t = { s with calls := s.calls ++ [.open_ Config.devicePath Config.spi], openAnswers := s.openAnswers.tail,
                       variant := .handleOwning (.connected x), result := some (.ok .nothing) }) := by
  unfold openThenConnect at h
  split at h
  · next r u hr =>
    have hu : u = { s with calls := s.calls ++ [.open_ Config.devicePath Config.spi], openAnswers := s.openAnswers.tail } := by
      unfold chanOpen at hr
      split at hr
      · next heq => cases hr; simp [heq, record]
      · cases hr
      · next heq => cases hr; simp [heq, record]
    cases h
    subst hu
    cases r with
    | err c => exact .inl ⟨c, rfl⟩
    | ok x => exact .inr ⟨x, rfl⟩
  · cases h

/-- The body of CONNECT never refuses. -/
theorem openThenConnect_not_refused {s : State} {r : Refusal} : openThenConnect s ≠ .refused r := by
  unfold openThenConnect
  split <;> simp

/-- The body of CONNECT faults only when the environment is silent. -/
theorem openThenConnect_fault {s : State} {r : Fault} (h : openThenConnect s = .fault r) :
    s.openAnswers.head? = some .silent := by
  unfold openThenConnect at h
  split at h
  · cases h
  · next hr =>
    unfold chanOpen at hr
    split at hr
    · cases hr
    · next heq => simp [heq]
    · cases hr

/-- CONNECT either stops because it is not admitted or is its body. -/
theorem execConnect_cases (s : State) :
    (s.variant = .borrowed ∧ execConnect s = .refused .connectReserved) ∨
    ((∃ x, s.variant = .handleOwning (.connected x)) ∧ s.reconnect = .notAdmitted ∧
      execConnect s = .refused .connectWhileConnected) ∨
    (s.variant ≠ .borrowed ∧ (s.variant = .handleOwning .unconnected ∨ s.reconnect = .replaceOnSuccess) ∧
      execConnect s = openThenConnect s) := by
  unfold execConnect
  rcases hv : s.variant with _ | _ | x
  · simp
  · simp
  · rcases hr : s.reconnect <;> simp

/-- CONNECT is its body exactly where it is admitted. -/
theorem execConnect_of_admitted {s : State} (h : ConnectIsAdmitted s) : execConnect s = openThenConnect s := by
  rcases h with hv | ⟨hr, x, hv⟩
  · simp [execConnect, hv]
  · simp [execConnect, hv, hr]

/-- Where CONNECT is not admitted it is refused. -/
theorem execConnect_of_not_admitted {s : State} (h : ¬ ConnectIsAdmitted s) : ∃ r, execConnect s = .refused r := by
  rcases execConnect_cases s with ⟨-, he⟩ | ⟨-, -, he⟩ | ⟨hb, hv, -⟩
  · exact ⟨_, he⟩
  · exact ⟨_, he⟩
  · refine absurd ?_ h
    rcases hs : s.variant with _ | _ | x
    · exact absurd hs hb
    · exact .inl hs
    · rcases hv with hv | hv
      · rw [hs] at hv; cases hv
      · exact .inr ⟨hv, x, hs⟩

/-- The three settings every open is made with (spec/10_state.md R19). -/
theorem spi_settings : Config.spi = { bitsPerWord := 8, maxClockHz := 1000000, cpol := false, cpha := true } := rfl

/-- EVERYTHING AN OPERATION CAN DO when it completes. -/
theorem exec_next {i : Instr} {s t : State} (h : exec i s = .next t) :
    (∃ r, (i = .readRawWord ∨ i = .readCelsius) ∧ s.channel = none ∧ r = OpResult.error .notConnected ∧
      t = { s with result := some r }) ∨
    (∃ ch f, i = .readRawWord ∧ s.channel = some ch ∧ s.nextReply = some f ∧
      t = { s with calls := s.calls ++ [.read ch 2], readAnswers := s.readAnswers.tail,
                   result := some (resultOf (rawWordOf f)) }) ∨
    (∃ ch f, i = .readCelsius ∧ s.channel = some ch ∧ s.nextReply = some f ∧
      t = { s with calls := s.calls ++ [.read ch 2], readAnswers := s.readAnswers.tail,
                   result := some (resultOf (celsiusOf f)) }) ∨
    (∃ w, i = .isOpenCircuit w ∧ t = { s with result := some (.ok (.bool (faultFlag w))) }) ∨
    (∃ w, i = .decodeCelsius w ∧ t = { s with result := some (.ok (.celsius (celsiusOfWord w))) }) ∨
    (∃ c, i = .connect ∧ s.variant ≠ .borrowed ∧
      t = { s with calls := s.calls ++ [.open_ Config.devicePath Config.spi], openAnswers := s.openAnswers.tail,
                   result := some (.error (.transport c)) }) ∨
    (∃ x, i = .connect ∧ s.variant ≠ .borrowed ∧
      (s.variant = .handleOwning .unconnected ∨ s.reconnect = .replaceOnSuccess) ∧
      t = { s with calls := s.calls ++ [.open_ Config.devicePath Config.spi], openAnswers := s.openAnswers.tail,
                   variant := .handleOwning (.connected x), result := some (.ok .nothing) }) := by
  cases i with
  | readRawWord =>
    rcases readThen_next h with ⟨hc, rfl⟩ | ⟨ch, f, hc, hf, rfl⟩
    · exact .inl ⟨_, .inl rfl, hc, rfl, rfl⟩
    · exact .inr (.inl ⟨ch, f, rfl, hc, hf, rfl⟩)
  | readCelsius =>
    rcases readThen_next h with ⟨hc, rfl⟩ | ⟨ch, f, hc, hf, rfl⟩
    · exact .inl ⟨_, .inr rfl, hc, rfl, rfl⟩
    · exact .inr (.inr (.inl ⟨ch, f, rfl, hc, hf, rfl⟩))
  | isOpenCircuit w => cases h; exact .inr (.inr (.inr (.inl ⟨w, rfl, rfl⟩)))
  | decodeCelsius w => cases h; exact .inr (.inr (.inr (.inr (.inl ⟨w, rfl, rfl⟩))))
  | connect =>
    have h' : execConnect s = .next t := h
    rcases execConnect_cases s with ⟨-, he⟩ | ⟨-, -, he⟩ | ⟨hb, hr, he⟩
    · rw [he] at h'; cases h'
    · rw [he] at h'; cases h'
    · rw [he] at h'
      rcases openThenConnect_next h' with ⟨c, rfl⟩ | ⟨x, rfl⟩
      · exact .inr (.inr (.inr (.inr (.inr (.inl ⟨c, rfl, hb, rfl⟩)))))
      · exact .inr (.inr (.inr (.inr (.inr (.inr ⟨x, rfl, hb, hr, rfl⟩)))))

/-- The step of a state in which a command word is presented next. -/
theorem step_present (w : CmdWord) (s : State) :
    step (present w s) =
      match decode s.handleOwning w with
      | .instr i   => exec i s
      | .invalid e => .refused (refusalOf e) := by
  unfold step fetch
  simp only [present_commands, present_handleOwning]
  rcases decode s.handleOwning w with i | e <;> rfl

/-- EVERYTHING A STEP CAN DO when it goes on: wait, or complete the operation it took. -/
theorem step_next {s t : State} (h : step s = .next t) :
    (s.commands = [] ∧ t = idle s) ∨
    (∃ w rest i, s.commands = w :: rest ∧ decode s.handleOwning w = .instr i ∧
      exec i { s with commands := rest } = .next t) := by
  unfold step fetch at h
  rcases hc : s.commands with _ | ⟨w, rest⟩
  · simp only [hc] at h
    cases h
    exact .inl ⟨rfl, rfl⟩
  · simp only [hc] at h
    rcases hd : decode s.handleOwning w with i | e
    · simp only [hd] at h
      exact .inr ⟨w, rest, i, rfl, hd, h⟩
    · simp only [hd] at h
      cases h

end Sys2Proof.Machine
end

