-- ==== Sys2Proof/Laws/PerInstr.lean ====
section
/-! SUPPORT. Facts made for every instruction as syntax, one lemma per constructor. -/

namespace Sys2Proof.Laws.EncodeFields

/-- The fields of an instruction's word are its row's operation code and its operand, ARG being zero where it has none
(spec/30_encoding.md R47, R48, R55). -/
def Statement (i : Instr) : Prop :=
  commandWord (opField (encode i)) (argField (encode i)) = encode i ∧
  argField (encode i) = i.operand?.getD 0x0000#16 ∧
  (∃ r ∈ opcodeTable, r.mnemonic = i.mnemonic ∧ r.matchesWord (encode i) = true)

theorem readRawWord : Statement .readRawWord := by unfold Statement; decide

theorem isOpenCircuit (w : RawWord) : Statement (.isOpenCircuit w) := by
  refine ⟨?_, argField_commandWord _ _, _, .tail _ (.head _), rfl, ?_⟩
  · simp only [encode, opField_commandWord, argField_commandWord]
  · simp only [OpcodeRow.matchesWord, encode, commandWord_and_mask]; decide

theorem decodeCelsius (w : RawWord) : Statement (.decodeCelsius w) := by
  refine ⟨?_, argField_commandWord _ _, _, .tail _ (.tail _ (.head _)), rfl, ?_⟩
  · simp only [encode, opField_commandWord, argField_commandWord]
  · simp only [OpcodeRow.matchesWord, encode, commandWord_and_mask]; decide

theorem readCelsius : Statement .readCelsius := by unfold Statement; decide

theorem connect : Statement .connect := by unfold Statement; decide

end Sys2Proof.Laws.EncodeFields
end

