-- ==== Sys2Proof/Tests/Slice0.lean ====
section
/-! SUPPORT. Tests of single steps on small states, with results from the vectors of spec/95_test_vectors.md; the check that
WellFormed refuses; decoding of words written out from spec/30_encoding.md R47, R48; and, under the names test_witness_…, one
concrete case that meets the hypotheses of each statement that has any. -/

namespace Sys2Proof.Tests

open Sys2Proof.Machine

/-- A cause, two handles. -/
def c1 : Cause := ⟨1⟩
def h1 : Handle := ⟨1⟩
def h2 : Handle := ⟨2⟩

/-- A state of variant `v` whose channel is about to give the answers `reads`. -/
def st (v : Variant) (reads : List (Answer ReadReply)) : State := { State.reset with variant := v, readAnswers := reads }

/-- A handle-owning state about to open. -/
def stOpen (v : Conn) (opens : List (Answer OpenReply)) : State :=
  { State.reset with variant := .handleOwning v, openAnswers := opens }

/-- The channel replies with these bytes. -/
def bytes (b : List Byte) : List (Answer ReadReply) := [.replied (.ok b)]

/-- The next state of an outcome, if it has one. -/
def next? : Host.Outcome State Fault Refusal → Option State
  | .next s => some s
  | _       => none

/-- The result an outcome's state carries. -/
def result? (o : Host.Outcome State Fault Refusal) : Option OpResult := (next? o).bind (·.result)

/-! ### WellFormed -/

theorem test_wellFormed_connect_without_handle : Instr.wellFormed false .connect = false := by decide
theorem test_wellFormed_connect_with_handle : Instr.wellFormed true .connect = true := by decide

/-! ### Decoding, from words written bit by bit: OP in bits 18 to 16, ARG in bits 15 to 0 (R47, R48) -/

theorem test_decode_readRawWord : decode true 0b000_0000000000000000#19 = .instr .readRawWord := by decide
theorem test_decode_isOpenCircuit :
    decode true 0b001_0000000110010100#19 = .instr (.isOpenCircuit 0x0194#16) := by decide
theorem test_decode_decodeCelsius :
    decode true 0b010_1010101111001101#19 = .instr (.decodeCelsius 0xABCD#16) := by decide
theorem test_decode_readCelsius : decode false 0b011_1111111111111111#19 = .instr .readCelsius := by decide
theorem test_decode_connect : decode true 0b100_0000000000000000#19 = .instr .connect := by decide
theorem test_decode_reserved_is_no_neighbour :
    decode true 0b110_0000000110010000#19 = .invalid (.reservedCode 0b110#3) := by decide
theorem test_decode_connect_reserved : decode false 0b100_0000000000000000#19 = .invalid .connectReserved := by decide
theorem test_encode_decodeCelsius : encode (.decodeCelsius 0x0190#16) = 0x20190#19 := by decide
theorem test_table_rows_do_not_overlap :
    opcodeTable.Pairwise (fun r q => r.mask = q.mask ∧ r.pattern ≠ q.pattern) := by decide
theorem test_decodeTableWord : decodeTableWord 24 0x10004 = some (.isOpenCircuit 0x0004#16) := by decide
theorem test_decodeTableWord_too_wide : decodeTableWord 24 0x80000 = none := by decide

/-! ### One step of each instruction -/

/-- VA2: bytes are not swapped. -/
theorem test_readRawWord_big_endian :
    result? (exec .readRawWord (st .borrowed (bytes [0x90#8, 0x01#8]))) = some (.ok (.word 0x9001#16)) := by decide
/-- VA12: a short reply is not padded and its fault bit is not looked at. -/
theorem test_readRawWord_short :
    result? (exec .readRawWord (st (.handleOwning (.connected h1)) (bytes [0x04#8]))) = some (.error .noData) := by decide
/-- VB8: every bit but D2. -/
theorem test_isOpenCircuit_other_bits :
    result? (exec (.isOpenCircuit 0xFFFB#16) State.reset) = some (.ok (.bool false)) := by decide
/-- VB2: D2 alone. -/
theorem test_isOpenCircuit_d2 :
    result? (exec (.isOpenCircuit 0x0004#16) State.reset) = some (.ok (.bool true)) := by decide
/-- VC28: D15 and the fault bit set; 503.25, not the rejected mask's 1527.25. -/
theorem test_decodeCelsius_d15 :
    result? (exec (.decodeCelsius 0xBEEF#16) State.reset) = some (.ok (.celsius 0x407F740000000000#64)) := by decide
/-- VC11: the round-trip scenario of the source, 12.5. -/
theorem test_decodeCelsius_round_trip :
    result? (exec (.decodeCelsius 0x0190#16) State.reset) = some (.ok (.celsius 0x4029000000000000#64)) := by decide
/-- VD5: maximum magnitude and fault, never reported. -/
theorem test_readCelsius_open :
    result? (exec .readCelsius (st .borrowed (bytes [0x7F#8, 0xFC#8]))) = some (.error .openCircuit) := by decide
/-- VD8: every bit but D2, 1023.75. -/
theorem test_readCelsius_max :
    result? (exec .readCelsius (st .borrowed (bytes [0xFF#8, 0xFB#8]))) =
      some (.ok (.celsius 0x408FFE0000000000#64)) := by decide
/-- The settings a call configures, if it is an open. -/
def settings? : ChanCall → Option SpiSettings
  | .read _ _    => none
  | .open_ _ cfg => some cfg

/-- VE1, with the call's settings (R19: 8 bits, 1 000 000 Hz, mode 1 with CPOL = 0 and CPHA = 1). -/
theorem test_connect_success :
    (next? (exec .connect (stOpen .unconnected [.replied (.ok h1)]))).map (fun t => (t.variant, t.calls.map settings?)) =
      some (.handleOwning (.connected h1), [some ⟨8, 1000000, false, true⟩]) := by decide
/-- VE2. -/
theorem test_connect_failure :
    (next? (exec .connect (stOpen .unconnected [.replied (.err c1)]))).map (fun t => (t.variant, t.result)) =
      some (.handleOwning .unconnected, some (.error (.transport c1))) := by decide
/-- P3 step 1, through the step: the presented word is taken and no call is made. -/
theorem test_step_from_reset :
    (next? (step (State.reset.withFetchWord 24 0x30000))).map (fun t => (t.result, t.calls, t.commands)) =
      some (some (.error .notConnected), [], []) := by decide
/-- A presented CONNECT runs as the first instruction after reset, whatever the free reply is. -/
theorem test_step_connect_from_reset : ∃ t, step (State.reset.withFetchWord 24 0x40000) = .next t := ⟨_, rfl⟩

/-! ### Witnesses: the hypotheses of the statements can be met -/

theorem test_witness_FrameIsAssembledBigEndian : (7 : ℕ) < 8 := by decide
theorem test_witness_MagnitudeLaws : 0x8010#16 &&& 0x7FF8#16 ≤ 0x0017#16 &&& 0x7FF8#16 := by decide
theorem test_witness_RejectedMask_d15_clear : (0x7FFF#16 : RawWord).getLsbD 15 = false := by decide
theorem test_witness_RejectedMask_d15_set : (0x8000#16 : RawWord).getLsbD 15 = true := by decide
theorem test_witness_CelsiusBitPattern_low : 2 ^ 0 ≤ (1#12 : Magnitude).toNat ∧ (1#12 : Magnitude).toNat < 2 ^ (0 + 1) := by
  decide
theorem test_witness_CelsiusBitPattern_high :
    2 ^ 11 ≤ (4095#12 : Magnitude).toNat ∧ (4095#12 : Magnitude).toNat < 2 ^ (11 + 1) := by decide
theorem test_witness_CelsiusIsAlwaysAnOrdinaryNumber : f64Exponent (celsiusOfWord 0x0004#16) = 0#11 := by decide
theorem test_witness_DecodeOfEncode : Instr.wellFormed false (.decodeCelsius 0xFFFF#16) = true := by decide
theorem test_witness_UnusedArgumentIsIgnored :
    0b011#3 ≠ 0b001#3 ∧ 0b011#3 ≠ 0b010#3 ∧ State.reset.handleOwning = true := by decide
theorem test_witness_ReservedCodesAreRefused : (st .borrowed []).variant = .borrowed := by decide
theorem test_witness_StepRunsTheDecodedOperation :
    (present 0x20190#19 State.reset).commands = 0x20190#19 :: [] ∧
    decode (present 0x20190#19 State.reset).handleOwning 0x20190#19 = .instr (.decodeCelsius 0x0190#16) := by decide
theorem test_witness_FetchWordIsRunNext :
    State.reset.handleOwning = Config.handleOwningAtReset ∧ decodeTableWord 24 0x40000 = some .connect := by decide
theorem test_witness_WaitingChangesNothing : State.reset.commands = [] := by decide

/-- The reads' hypotheses: no channel, then a channel with each of the replies, in both variants, and no fixed answer. -/
theorem test_witness_reads_unconnected : State.reset.variant = .handleOwning .unconnected := by decide
theorem test_witness_reads_err :
    (st .borrowed [.replied (.err c1)]).channel = some .attached ∧
    (st .borrowed [.replied (.err c1)]).readAnswers = .replied (.err c1) :: [] := by decide
theorem test_witness_reads_empty :
    (st (.handleOwning (.connected h1)) (bytes [])).channel = some (.owned h1) ∧
    (st (.handleOwning (.connected h1)) (bytes [])).readAnswers = .replied (.ok []) :: [] := by decide
theorem test_witness_reads_short :
    (st .borrowed (bytes [0xFF#8])).channel = some .attached ∧
    (st .borrowed (bytes [0xFF#8])).readAnswers = .replied (.ok [0xFF#8]) :: [] := by decide
theorem test_witness_reads_frame :
    (st (.handleOwning (.connected h1)) (bytes [0xFF#8, 0xFF#8])).channel = some (.owned h1) ∧
    (st (.handleOwning (.connected h1)) (bytes [0xFF#8, 0xFF#8])).readAnswers = .replied (.ok [0xFF#8, 0xFF#8]) :: [] := by
  decide
theorem test_witness_reads_free :
    (st .borrowed []).channel = some .attached ∧ (st .borrowed []).readAnswers = [] := by decide

theorem test_witness_ConnectResult_err :
    (stOpen .unconnected [.replied (.err c1)]).variant = .handleOwning .unconnected ∧
    (stOpen .unconnected [.replied (.err c1)]).openAnswers = .replied (.err c1) :: [] := by decide
theorem test_witness_ConnectResult_ok :
    (stOpen .unconnected [.replied (.ok h1)]).variant = .handleOwning .unconnected ∧
    (stOpen .unconnected [.replied (.ok h1)]).openAnswers = .replied (.ok h1) :: [] := by decide
theorem test_witness_ConnectResult_free :
    State.reset.variant = .handleOwning .unconnected ∧ State.reset.openAnswers = [] := by decide
theorem test_witness_ConnectWhileConnectedIsRefused :
    (stOpen (.connected h1) []).variant = .handleOwning (.connected h1) ∧
    (stOpen (.connected h1) []).reconnect = .notAdmitted := by decide

/-- A connected state that admits RECONNECT. -/
def stReconnect (opens : List (Answer OpenReply)) : State :=
  { stOpen (.connected h1) opens with reconnect := .replaceOnSuccess }

theorem test_witness_Reconnect_err :
    (stReconnect [.replied (.err c1)]).variant = .handleOwning (.connected h1) ∧
    (stReconnect [.replied (.err c1)]).reconnect = .replaceOnSuccess ∧
    (stReconnect [.replied (.err c1)]).openAnswers = .replied (.err c1) :: [] := by decide
theorem test_witness_Reconnect_ok :
    (stReconnect [.replied (.ok h2)]).variant = .handleOwning (.connected h1) ∧
    (stReconnect [.replied (.ok h2)]).reconnect = .replaceOnSuccess ∧
    (stReconnect [.replied (.ok h2)]).openAnswers = .replied (.ok h2) :: [] := by decide
theorem test_witness_Reconnect_free :
    (stReconnect []).variant = .handleOwning (.connected h1) ∧ (stReconnect []).reconnect = .replaceOnSuccess ∧
    (stReconnect []).openAnswers = [] := by decide
theorem test_witness_OverlongReplyIsRefused :
    IsRead .readCelsius ∧ (st .borrowed (bytes [1#8, 2#8, 3#8])).channel = some .attached ∧
    (st .borrowed (bytes [1#8, 2#8, 3#8])).readAnswers = .replied (.ok [1#8, 2#8, 3#8]) :: [] ∧
    2 < [1#8, 2#8, 3#8].length := ⟨.inr rfl, by decide⟩
theorem test_witness_UnansweredCall_read :
    IsRead .readRawWord ∧ (st .borrowed [.silent]).channel = some .attached ∧
    (st .borrowed [.silent]).readAnswers = .silent :: [] := ⟨.inl rfl, by decide⟩
theorem test_witness_UnansweredCall_open :
    ConnectIsAdmitted (stOpen .unconnected [.silent]) ∧
    (stOpen .unconnected [.silent]).openAnswers = .silent :: [] := ⟨.inl rfl, by decide⟩
theorem test_witness_UnansweredCall_reconnect :
    ConnectIsAdmitted (stReconnect [.silent]) ∧ (stReconnect [.silent]).openAnswers = .silent :: [] :=
  ⟨.inr ⟨rfl, h1, rfl⟩, by decide⟩
theorem test_witness_ConnDecidesTheChannel :
    (st .borrowed []).variant = .borrowed ∧ State.reset.variant = .handleOwning .unconnected ∧
    (stOpen (.connected h1) []).variant = .handleOwning (.connected h1) := by decide

/-- Admitted: a read at the boundary of 2 bytes, and CONNECT. -/
theorem test_witness_AdmittedOperationsComplete_read :
    Instr.wellFormed (st .borrowed (bytes [0#8, 4#8])).handleOwning .readCelsius = true ∧
    ReadAnswerIsAdmitted (st .borrowed (bytes [0#8, 4#8])).readAnswers := by
  refine ⟨by decide, ?_⟩
  change 2 ≤ 2
  decide
theorem test_witness_AdmittedOperationsComplete_connect :
    Instr.wellFormed State.reset.handleOwning .connect = true ∧ OpenAnswerIsAdmitted State.reset.openAnswers ∧
    State.reset.variant = .handleOwning .unconnected := ⟨by decide, trivial, by decide⟩
theorem test_witness_StopsHaveTheirCause_refused :
    exec .connect (st .borrowed []) = .refused .connectReserved ∧
    exec .connect (stOpen (.connected h1) []) = .refused .connectWhileConnected ∧
    exec .readRawWord (st .borrowed (bytes [1#8, 2#8, 3#8])) = .refused (.overlongReply 3) := ⟨rfl, rfl, rfl⟩
theorem test_witness_StopsHaveTheirCause_fault :
    exec .readCelsius (st .borrowed [.silent]) = .fault .operationNeverReturns ∧
    exec .connect (stOpen .unconnected [.silent]) = .fault .operationNeverReturns := ⟨rfl, rfl⟩

/-- `exec i s = .next t`, for the statements about a completed operation: a decode operation (not a read, not CONNECT), a
read with a value, a read that ends in OPEN_CIRCUIT, one in NOT_CONNECTED, and a CONNECT of either result. -/
theorem test_witness_exec_next_decode :
    exec (.decodeCelsius 0x0190#16) State.reset =
      .next { State.reset with result := some (.ok (.celsius 0x4029000000000000#64)) } := rfl
theorem test_witness_exec_next_read :
    exec .readRawWord (st .borrowed (bytes [0x01#8, 0x90#8])) =
      .next ((st .borrowed (bytes [0x01#8, 0x90#8])).afterRead .attached [] (.ok (.word 0x0190#16))) := rfl
theorem test_witness_exec_next_open_circuit :
    (st .borrowed (bytes [0x00#8, 0x04#8])).channel ≠ none ∧
    exec .readCelsius (st .borrowed (bytes [0x00#8, 0x04#8])) =
      .next ((st .borrowed (bytes [0x00#8, 0x04#8])).afterRead .attached [] (.error .openCircuit)) := ⟨by decide, rfl⟩
theorem test_witness_exec_next_not_connected :
    exec .readCelsius State.reset = .next { State.reset with result := some (.error .notConnected) } := rfl
theorem test_witness_exec_next_read_error :
    exec .readRawWord (st .borrowed [.replied (.err c1)]) =
      .next ((st .borrowed [.replied (.err c1)]).afterRead .attached [] (.error (.transport c1))) := rfl
theorem test_witness_exec_next_connect :
    (stOpen .unconnected [.replied (.ok h1)]).variant ≠ .handleOwning (.connected h1) ∧
    exec .connect (stOpen .unconnected [.replied (.ok h1)]) =
      .next ((stOpen .unconnected [.replied (.ok h1)]).afterOpen [] (.handleOwning (.connected h1)) (.ok .nothing)) :=
  ⟨by decide, rfl⟩
theorem test_witness_exec_next_connect_failed :
    (stOpen .unconnected [.replied (.err c1)]).variant = .handleOwning .unconnected ∧
    exec .connect (stOpen .unconnected [.replied (.err c1)]) =
      .next ((stOpen .unconnected [.replied (.err c1)]).afterOpen [] (.handleOwning .unconnected)
        (.error (.transport c1))) ∧
    OpResult.error (.transport c1) ≠ .ok .nothing := ⟨by decide, rfl, by decide⟩
theorem test_witness_read_after_connect :
    IsRead .readRawWord ∧
    exec .readRawWord (st (.handleOwning (.connected h1)) (bytes [0x01#8, 0x90#8])) =
      .next ((st (.handleOwning (.connected h1)) (bytes [0x01#8, 0x90#8])).afterRead (.owned h1) []
        (.ok (.word 0x0190#16))) := ⟨.inl rfl, rfl⟩

/-- A step of a connected state (RECONNECT not admitted) that has the invariant. -/
theorem test_witness_ConnectedStaysConnected :
    (present 0x10004#19 (stOpen (.connected h1) [])).variant = .handleOwning (.connected h1) ∧
    (present 0x10004#19 (stOpen (.connected h1) [])).reconnect = .notAdmitted ∧
    step (present 0x10004#19 (stOpen (.connected h1) [])) =
      .next { stOpen (.connected h1) [] with result := some (.ok (.bool true)) } := ⟨by decide, by decide, rfl⟩
theorem test_witness_StepKeepsTheInvariant :
    (present 0x30000#19 State.reset).Inv ∧
    step (present 0x30000#19 State.reset) = .next { State.reset with result := some (.error .notConnected) } := by
  refine ⟨⟨?_, ?_, ?_, ?_, ?_⟩, rfl⟩ <;> simp [present, State.reset, State.resetWith]
/-- A read with no open answer listed, and a CONNECT with no read answer listed. -/
theorem test_witness_CausesAreOpaque_read :
    (IsRead .readCelsius → (st .borrowed [.replied (.err c1)]).channel ≠ none →
      (st .borrowed [.replied (.err c1)]).readAnswers ≠ []) ∧
    (Instr.readCelsius = .connect → ConnectIsAdmitted (st .borrowed [.replied (.err c1)]) →
      (st .borrowed [.replied (.err c1)]).openAnswers ≠ []) := ⟨fun _ _ => by decide, fun h => by cases h⟩
theorem test_witness_CausesAreOpaque_connect :
    (IsRead .connect → (stOpen .unconnected [.replied (.err c1)]).channel ≠ none →
      (stOpen .unconnected [.replied (.err c1)]).readAnswers ≠ []) ∧
    (Instr.connect = .connect → ConnectIsAdmitted (stOpen .unconnected [.replied (.err c1)]) →
      (stOpen .unconnected [.replied (.err c1)]).openAnswers ≠ []) :=
  ⟨fun _ h => absurd (by decide) h, fun _ _ => by decide⟩
theorem test_witness_BothShapesComputeTheSame :
    Instr.readCelsius ≠ .connect ∧ (st .borrowed (bytes [0x01#8, 0x90#8])).variant = .borrowed := by decide
theorem test_witness_RunsOnlyExtendTheHistory :
    Sys2Proof.core.run 1 (present 0x00000#19 (st .borrowed (bytes [0x01#8, 0x90#8]))) =
      .next ((st .borrowed (bytes [0x01#8, 0x90#8])).afterRead .attached [] (.ok (.word 0x0190#16))) := rfl
theorem test_witness_FirstOperationAfterReset :
    IsRead .readCelsius ∧ IsRead .readRawWord ∧ State.reset.variant = .handleOwning .unconnected ∧
    exec .readCelsius State.reset = .next { State.reset with result := some (.error .notConnected) } ∧
    (some (OpResult.error .notConnected)) ≠ some (.ok .nothing) :=
  ⟨.inr rfl, .inl rfl, by decide, rfl, by decide⟩

end Sys2Proof.Tests
end

/-! ## Proofs of the scope family (spec/00_scope.md): what a step runs, which operations complete, the reset state -/

namespace Sys2Proof.Machine

/-! ### The operations by their shared parts -/

@[simp] theorem exec_readRawWord (s : State) : exec .readRawWord s = readThen rawWordOf s := rfl
@[simp] theorem exec_isOpenCircuit (w : RawWord) (s : State) :
    exec (.isOpenCircuit w) s = .next (ret (.bool (faultFlag w)) s) := rfl
@[simp] theorem exec_decodeCelsius (w : RawWord) (s : State) :
    exec (.decodeCelsius w) s = .next (ret (.celsius (celsiusOfWord w)) s) := rfl
@[simp] theorem exec_readCelsius (s : State) : exec .readCelsius s = readThen celsiusOf s := rfl
@[simp] theorem exec_connect (s : State) : exec .connect s = execConnect s := rfl

/-- HANDLE_OWNING is true exactly in the variant that has `CONN` (spec/10_state.md R15). -/
theorem handleOwning_eq_true_iff (s : State) : s.handleOwning = true ↔ s.variant ≠ .borrowed := by
  unfold State.handleOwning
  split <;> simp_all

/-! ### The step on a presented command -/

/-- A state with a command on its list is the state after taking it, with the command presented again. -/
theorem present_of_commands_eq_cons {s : State} {w : CmdWord} {rest : List CmdWord} (h : s.commands = w :: rest) :
    present w { s with commands := rest } = s := by
  simp [present, ← h]

/-- The step on a presented word that decodes, as `step_present` but from the list of commands. -/
theorem step_of_decode {s : State} {w : CmdWord} {rest : List CmdWord} {i : Instr} (hc : s.commands = w :: rest)
    (hd : decode s.handleOwning w = .instr i) : step s = exec i { s with commands := rest } := by
  have hd' : decode (State.handleOwning { s with commands := rest }) w = .instr i := hd
  calc step s = step (present w { s with commands := rest }) := by rw [present_of_commands_eq_cons hc]
    _ = exec i { s with commands := rest } := by rw [step_present, hd']

/-! ### Completion: an admitted call is answered, and an operation whose call is answered returns -/

/-- An admitted read answer gives the next `ChanRead(2)` a reply of one of the four shapes (spec/20_memory.md R27). -/
theorem exists_nextReply_of_admitted {s : State} (h : ReadAnswerIsAdmitted s.readAnswers) :
    ∃ r, s.nextReply = some r := by
  unfold State.nextReply
  rcases ha : s.readAnswers with _ | ⟨a, rest⟩
  case nil => exact ⟨_, rfl⟩
  case cons =>
    rw [ha] at h
    cases a with
    | silent => exact h.elim
    | replied reply =>
      refine Option.ne_none_iff_exists'.mp fun hnone => ?_
      obtain ⟨bytes, rfl, hlong⟩ := (replyShape?_eq_none_iff reply).mp hnone
      exact absurd h (Nat.not_le.mpr hlong)

/-- A read completes when it has no channel (NOT_CONNECTED), and otherwise when its reply is admitted. -/
theorem readThen_completes (eval : FrameReply → Except OpError Payload) {s : State}
    (h : s.channel ≠ none → ReadAnswerIsAdmitted s.readAnswers) : ∃ t, readThen eval s = .next t := by
  rcases hc : s.channel with _ | ch
  case none => exact ⟨_, readThen_of_no_channel eval hc⟩
  case some =>
    obtain ⟨r, hr⟩ := exists_nextReply_of_admitted (h (by simp [hc]))
    exact ⟨_, readThen_of_nextReply eval hc hr⟩

/-- A silent environment is not an admitted answer to `ChanOpen` (spec/70_reset_and_hazards.md R109). -/
theorem openAnswerIsAdmitted_head_ne_silent {answers : List (Answer OpenReply)} (h : OpenAnswerIsAdmitted answers) :
    answers.head? ≠ some .silent := by
  rcases answers with _ | ⟨_ | _, rest⟩
  · simp
  · simp
  · exact h.elim

/-- The body of CONNECT completes when its answer is admitted: it never refuses, and only a silence is its fault. -/
theorem openThenConnect_completes {s : State} (h : OpenAnswerIsAdmitted s.openAnswers) :
    ∃ t, openThenConnect s = .next t := by
  cases ho : openThenConnect s with
  | next t => exact ⟨t, rfl⟩
  | fault => exact absurd (openThenConnect_fault ho) (openAnswerIsAdmitted_head_ne_silent h)
  | refused => exact absurd ho openThenConnect_not_refused

/-- CONNECT completes in a handle-owning block that is Unconnected or admits RECONNECT, when its answer is admitted. -/
theorem execConnect_completes {s : State} (howning : s.handleOwning = true) (ha : OpenAnswerIsAdmitted s.openAnswers)
    (hconn : s.variant = .handleOwning .unconnected ∨ s.reconnect = .replaceOnSuccess) :
    ∃ t, execConnect s = .next t := by
  rcases execConnect_cases s with ⟨hborrowed, -⟩ | ⟨⟨x, hx⟩, hnot, -⟩ | ⟨-, -, hbody⟩
  · exact absurd hborrowed ((handleOwning_eq_true_iff s).mp howning)
  · simp [hx, hnot] at hconn
  · rw [hbody]
    exact openThenConnect_completes ha

/-- An operation that completes has put a result on the port (spec/60_exceptions.md R80). -/
theorem exec_next_result {i : Instr} {s t : State} (h : exec i s = .next t) : ∃ r, t.result = some r := by
  rcases exec_next h with ⟨_, _, _, _, rfl⟩ | ⟨_, _, _, _, _, rfl⟩ | ⟨_, _, _, _, _, rfl⟩ | ⟨_, _, rfl⟩ |
    ⟨_, _, rfl⟩ | ⟨_, _, _, rfl⟩ | ⟨_, _, _, _, rfl⟩ <;> exact ⟨_, rfl⟩

end Sys2Proof.Machine

namespace Sys2Proof

open Sys2Proof.Machine

/-- Settles O29, operation by operation: the decode operations always complete, a read by its reply, CONNECT by its body. -/
theorem admittedOperationsComplete : Obligations.AdmittedOperationsComplete := by
  intro i s hwf hread hconnect
  have hcompletes : ∃ t, exec i s = .next t := by
    cases i with
    | readRawWord => exact readThen_completes rawWordOf (hread (.inl rfl))
    | readCelsius => exact readThen_completes celsiusOf (hread (.inr rfl))
    | isOpenCircuit w => exact ⟨_, exec_isOpenCircuit w s⟩
    | decodeCelsius w => exact ⟨_, exec_decodeCelsius w s⟩
    | connect =>
      obtain ⟨hanswer, hadmitted⟩ := hconnect rfl
      exact execConnect_completes hwf hanswer hadmitted
  obtain ⟨t, ht⟩ := hcompletes
  obtain ⟨r, hr⟩ := exec_next_result ht
  exact ⟨t, r, ht, hr⟩

/-- Settles O16: a state with a command on its list is that command presented to the rest. -/
theorem stepRunsTheDecodedOperation : Obligations.StepRunsTheDecodedOperation :=
  fun _ _ _ _ hcommands hdecode => step_of_decode hcommands hdecode

/-- Settles O49: `Config.handleOwningAtReset` is true, so reset takes the handle-owning variant. -/
theorem resetStateOfTheModel : Obligations.ResetStateOfTheModel := by
  simp [Obligations.ResetStateOfTheModel, State.reset, State.resetWith, Config.handleOwningAtReset]

end Sys2Proof

/-! ## Proofs of the state family (spec/10_state.md): the temperature of a word, the invariant, what each operation touches -/

namespace Sys2Proof.Machine

/-! ### The fields and the value of a binary64 pattern (log entry 7) -/

@[simp] theorem f64Sign_f64OfFields (sign : BitVec 1) (exponent : BitVec 11) (fraction : BitVec 52) :
    f64Sign (f64OfFields sign exponent fraction) = sign :=
  (BitVec.extractLsb'_append_eq_of_le (xhi := sign ++ exponent) (by decide)).trans BitVec.extractLsb'_append_eq_left

@[simp] theorem f64Exponent_f64OfFields (sign : BitVec 1) (exponent : BitVec 11) (fraction : BitVec 52) :
    f64Exponent (f64OfFields sign exponent fraction) = exponent :=
  (BitVec.extractLsb'_append_eq_of_le (xhi := sign ++ exponent) (by decide)).trans BitVec.extractLsb'_append_eq_right

@[simp] theorem f64Fraction_f64OfFields (sign : BitVec 1) (exponent : BitVec 11) (fraction : BitVec 52) :
    f64Fraction (f64OfFields sign exponent fraction) = fraction := BitVec.extractLsb'_append_eq_right

/-- A positive normal number: its exponent is neither all zeros nor all ones. -/
theorem f64Value_of_normal_fields {e f : ℕ} (hpos : 0 < e) (he : e < 2047) (hf : f < 2 ^ 52) :
    f64Value (f64OfFields 0#1 (BitVec.ofNat 11 e) (BitVec.ofNat 52 f)) =
      some ((1 + (f : ℚ) / 2 ^ 52) * 2 ^ e / 2 ^ 1023) := by
  have hexponent : (BitVec.ofNat 11 e).toNat = e := Nat.mod_eq_of_lt (by omega)
  have hfraction : (BitVec.ofNat 52 f).toNat = f := Nat.mod_eq_of_lt hf
  have hfinite : BitVec.ofNat 11 e ≠ 0x7FF#11 := by bv_omega
  have hnormal : BitVec.ofNat 11 e ≠ 0#11 := by bv_omega
  simp only [f64Value, f64Sign_f64OfFields, f64Exponent_f64OfFields, f64Fraction_f64OfFields, hfinite, hnormal,
    if_false, if_true, hexponent, hfraction, one_mul]

/-- The significand and exponent that spec/41_word_decoder.md R70 gives `n` with highest bit `k` are worth `n / 4`. -/
theorem quarter_of_normalised {n k : ℕ} (hlow : 2 ^ k ≤ n) (hk : k ≤ 52) :
    (1 + (((n - 2 ^ k) * 2 ^ (52 - k) : ℕ) : ℚ) / 2 ^ 52) * 2 ^ (1021 + k) / 2 ^ 1023 = n * (1 / 4) := by
  have h52 : (2 : ℚ) ^ 52 = 2 ^ (52 - k) * 2 ^ k := by rw [← pow_add, Nat.sub_add_cancel hk]
  have h1023 : (2 : ℚ) ^ 1023 = 2 ^ 1021 * 2 ^ 2 := pow_add 2 1021 2
  rw [h52, h1023, pow_add]
  push_cast [hlow]
  field_simp
  ring

/-- What is left of `n` without its highest bit `k`, moved up to the fraction field, fits there. -/
theorem fraction_of_normalised_lt {n k : ℕ} (hhigh : n < 2 ^ (k + 1)) (hk : k ≤ 52) :
    (n - 2 ^ k) * 2 ^ (52 - k) < 2 ^ 52 := by
  have hrest : n - 2 ^ k < 2 ^ k := by rw [pow_succ] at hhigh; omega
  calc (n - 2 ^ k) * 2 ^ (52 - k) < 2 ^ k * 2 ^ (52 - k) := Nat.mul_lt_mul_of_pos_right hrest (by positivity)
    _ = 2 ^ 52 := by rw [← pow_add, Nat.add_sub_cancel' hk]

/-- The scaling is exact (spec/41_word_decoder.md R69, R70). -/
theorem f64Value_q2ToF64 (m : Magnitude) : f64Value (q2ToF64 m) = some ((m.toNat : ℚ) * (1 / 4)) := by
  by_cases hm : m = 0#12
  · subst hm
    simp [q2ToF64, f64Value, f64Exponent, f64Fraction]
  · have hne : m.toNat ≠ 0 := fun h => hm (BitVec.eq_of_toNat_eq h)
    have hk : m.toNat.log2 < 12 := (Nat.log2_lt hne).mpr m.isLt
    have hfraction := fraction_of_normalised_lt (Nat.lt_log2_self (n := m.toNat)) (by omega)
    simp only [q2ToF64, hm, if_false, Nat.shiftLeft_eq]
    rw [f64Value_of_normal_fields (by omega) (by omega) hfraction,
      quarter_of_normalised (Nat.log2_self_le hne) (by omega)]

/-- Every word decodes to one of the 4096 temperatures (spec/41_word_decoder.md R69). -/
theorem isTemperature_celsiusOfWord (w : RawWord) : IsTemperature (celsiusOfWord w) :=
  ⟨(magnitude w).toNat, Nat.le_of_lt_succ (magnitude w).isLt, f64Value_q2ToF64 (magnitude w)⟩

/-! ### The invariant, call by call and result by result -/

/-- What the invariant asks of one call in the history of a block of variant `v` and RECONNECT `rc`. -/
structure CallKept (v : Variant) (rc : Reconnect) (c : ChanCall) : Prop where
  fits : CallFits v c
  noRead : v = .handleOwning .unconnected → ∀ ch n, c ≠ .read ch n
  onTheHandle : rc = .notAdmitted → ∀ x x' n, v = .handleOwning (.connected x) → c = .read (.owned x') n → x' = x

/-- What the invariant asks of the result port of a block of variant `v`. -/
structure ResultKept (v : Variant) (r : Option OpResult) : Prop where
  temperature : ∀ t, r = some (.ok (.celsius t)) → IsTemperature t
  notConnected : r = some (.error .notConnected) → v = .handleOwning .unconnected

/-- The invariant is a condition on each call and one on the result port. -/
theorem inv_iff (s : State) :
    s.Inv ↔ (∀ c ∈ s.calls, CallKept s.variant s.reconnect c) ∧ ResultKept s.variant s.result := by
  constructor
  · intro ⟨hfits, hnever, hhandle, htemp, hnot⟩
    refine ⟨fun c hc => ⟨hfits c hc, ?_, ?_⟩, htemp, hnot⟩
    · rintro hv ch n rfl
      exact hnever hv ch n hc
    · rintro hr x x' n hv rfl
      exact hhandle hr x x' n hv hc
  · rintro ⟨hcalls, htemp, hnot⟩
    exact ⟨fun c hc => (hcalls c hc).fits, fun hv ch n hc => (hcalls _ hc).noRead hv ch n rfl,
      fun hr x x' n hv hc => (hcalls _ hc).onTheHandle hr x x' n hv rfl, htemp, hnot⟩

/-- A read on the channel the block has is a call the invariant allows. -/
theorem callKept_read {s : State} {ch : ChannelRef} (h : s.channel = some ch) :
    CallKept s.variant s.reconnect (.read ch 2) := by
  unfold State.channel at h
  split at h
  · next hv => cases h; exact ⟨by simp [CallFits, hv], by simp [hv], by simp [hv]⟩
  · cases h
  · next hv => cases h; exact ⟨by simp [CallFits, hv], by simp [hv], by simp [hv]⟩

/-- An open by a handle-owning block is a call the invariant allows. -/
theorem callKept_open {v : Variant} (rc : Reconnect) (h : v ≠ .borrowed) :
    CallKept v rc (.open_ Config.devicePath Config.spi) :=
  ⟨⟨rfl, h, spi_settings⟩, by simp, by simp⟩

/-- Storing a handle where CONNECT is admitted: an Unconnected block has made no read yet, and with RECONNECT admitted the
invariant does not ask which handle a read went to. -/
theorem CallKept.connected {v : Variant} {rc : Reconnect} {c : ChanCall} (h : CallKept v rc c) (hv : v ≠ .borrowed)
    (hadmitted : v = .handleOwning .unconnected ∨ rc = .replaceOnSuccess) (x : Handle) :
    CallKept (.handleOwning (.connected x)) rc c where
  fits := by
    rcases c with ⟨_ | y, n⟩ | ⟨path, settings⟩
    · exact absurd h.fits.2 hv
    · exact ⟨h.fits.1, by simp⟩
    · obtain ⟨hpath, -, hsettings⟩ := h.fits
      exact ⟨hpath, by simp, hsettings⟩
  noRead := by simp
  onTheHandle := by
    rintro hr y y' n - rfl
    rcases hadmitted with hu | hr'
    · exact absurd rfl (h.noRead hu _ _)
    · simp [hr] at hr'

theorem resultKept_none (v : Variant) : ResultKept v none := ⟨by simp, by simp⟩

/-- READ_RAW_WORD with a channel answers neither a temperature nor NOT_CONNECTED. -/
theorem resultKept_rawWordOf (v : Variant) (f : FrameReply) : ResultKept v (some (resultOf (rawWordOf f))) := by
  cases f <;> exact ⟨by simp [rawWordOf, frameWord], by simp [rawWordOf, frameWord]⟩

/-- A decoded word is a result the invariant allows. -/
theorem resultKept_celsiusOfWord (v : Variant) (w : RawWord) : ResultKept v (some (.ok (.celsius (celsiusOfWord w)))) where
  temperature := by
    intro t ht
    cases ht
    exact isTemperature_celsiusOfWord w
  notConnected := by simp

/-- READ_CELSIUS with a channel answers the temperature of a word, or an error other than NOT_CONNECTED. -/
theorem resultKept_celsiusOf (v : Variant) (f : FrameReply) : ResultKept v (some (resultOf (celsiusOf f))) := by
  cases f with
  | err c => exact ⟨by simp [celsiusOf, frameWord], by simp [celsiusOf, frameWord]⟩
  | empty => exact ⟨by simp [celsiusOf, frameWord], by simp [celsiusOf, frameWord]⟩
  | short b0 => exact ⟨by simp [celsiusOf, frameWord], by simp [celsiusOf, frameWord]⟩
  | frame b0 b1 =>
    rcases hf : faultFlag (assembleWord b0 b1) with _ | _
    · simpa [celsiusOf, frameWord, hf] using resultKept_celsiusOfWord v (assembleWord b0 b1)
    · exact ⟨by simp [celsiusOf, frameWord, hf], by simp [celsiusOf, frameWord, hf]⟩

/-- An operation that completes keeps the invariant. -/
theorem exec_keeps_inv {i : Instr} {s t : State} (hs : s.Inv) (h : exec i s = .next t) : t.Inv := by
  obtain ⟨hcalls, -⟩ := (inv_iff s).mp hs
  rw [inv_iff]
  rcases exec_next h with ⟨r, -, hc, rfl, rfl⟩ | ⟨ch, f, -, hc, -, rfl⟩ | ⟨ch, f, -, hc, -, rfl⟩ | ⟨w, -, rfl⟩ |
    ⟨w, -, rfl⟩ | ⟨c, -, hv, rfl⟩ | ⟨x, -, hv, hadmitted, rfl⟩
  · exact ⟨hcalls, by simp, fun _ => (channel_eq_none_iff s).mp hc⟩
  · exact ⟨List.forall_mem_append.mpr ⟨hcalls, by simpa using callKept_read hc⟩, resultKept_rawWordOf _ f⟩
  · exact ⟨List.forall_mem_append.mpr ⟨hcalls, by simpa using callKept_read hc⟩, resultKept_celsiusOf _ f⟩
  · exact ⟨hcalls, by simp, by simp⟩
  · exact ⟨hcalls, resultKept_celsiusOfWord _ w⟩
  · exact ⟨List.forall_mem_append.mpr ⟨hcalls, by simpa using callKept_open _ hv⟩, by simp, by simp⟩
  · exact ⟨List.forall_mem_append.mpr ⟨fun c hc => (hcalls c hc).connected hv hadmitted x,
      by simpa using callKept_open s.reconnect (by simp)⟩, by simp, by simp⟩

/-- The invariant does not look at the presented commands. -/
theorem State.Inv.withCommands {s : State} (h : s.Inv) (cmds : List CmdWord) : State.Inv { s with commands := cmds } :=
  ⟨h.callsFit, h.unconnectedNeverRead, h.readsOnTheHandle, h.temperature, h.notConnected⟩

/-- Waiting keeps the invariant: it only clears the result port. -/
theorem idle_keeps_inv {s : State} (h : s.Inv) : (idle s).Inv :=
  (inv_iff _).mpr ⟨((inv_iff s).mp h).1, resultKept_none _⟩

/-- The invariant holds after reset: no call has been made and the result port is empty. -/
theorem resetWith_inv (owning : Bool) (rc : Reconnect) : (State.resetWith owning rc).Inv :=
  (inv_iff _).mpr ⟨by simp [State.resetWith], resultKept_none _⟩

/-! ### No operation looks at the result port -/

/-- A read overwrites the result port and does not look at it. -/
theorem readThen_withResult (eval : FrameReply → Except OpError Payload) (s : State) (r : Option OpResult) :
    readThen eval { s with result := r } = readThen eval s := by
  have hchannel : State.channel { s with result := r } = s.channel := rfl
  unfold readThen
  rw [hchannel]
  rcases s.channel with _ | ch
  · rfl
  · rcases ha : s.readAnswers with _ | ⟨reply | _, rest⟩
    · simp [chanRead, ha, conclude_eq, record]
    · cases hs : replyShape? reply <;> simp [chanRead, ha, hs, conclude_eq, record]
    · simp [chanRead, ha]

/-- CONNECT's body overwrites the result port and does not look at it. -/
theorem openThenConnect_withResult (s : State) (r : Option OpResult) :
    openThenConnect { s with result := r } = openThenConnect s := by
  unfold openThenConnect
  rcases ha : s.openAnswers with _ | ⟨reply | _, rest⟩
  · cases hf : Config.freeOpenReply s.calls.length <;> simp [chanOpen, ha, hf, connectWith, record, ret, raise]
  · cases reply <;> simp [chanOpen, ha, connectWith, record, ret, raise]
  · simp [chanOpen, ha]

/-- Whether CONNECT is admitted does not depend on the result port either. -/
theorem execConnect_withResult (s : State) (r : Option OpResult) :
    execConnect { s with result := r } = execConnect s := by
  simp only [execConnect, openThenConnect_withResult]

end Sys2Proof.Machine

namespace Sys2Proof

open Sys2Proof.Machine

/-- Settles O34: a step waits, or completes the operation it took from a state that differs in its commands only. -/
theorem stepKeepsTheInvariant : Obligations.StepKeepsTheInvariant := by
  intro s t hs h
  rcases step_next h with ⟨-, rfl⟩ | ⟨w, rest, i, -, -, hexec⟩
  · exact idle_keeps_inv hs
  · exact exec_keeps_inv (hs.withCommands rest) hexec

/-- Settles O31: each of the seven ways an operation completes is an update of the fields its operation may touch. -/
theorem eachOperationTouchesOnlyItsState : Obligations.EachOperationTouchesOnlyItsState := by
  intro i s t h
  rcases exec_next h with ⟨r, -, -, -, rfl⟩ | ⟨ch, f, rfl, -, -, rfl⟩ | ⟨ch, f, rfl, -, -, rfl⟩ | ⟨w, -, rfl⟩ |
    ⟨w, -, rfl⟩ | ⟨c, rfl, -, rfl⟩ | ⟨x, rfl, -, -, rfl⟩
  · simp
  · simp [IsRead]
  · simp [IsRead]
  · simp
  · simp
  · simp
  · simp

/-- Settles O32: of the ways an operation completes, only the successful open writes the variant. -/
theorem onlyASuccessfulConnectWritesConn : Obligations.OnlyASuccessfulConnectWritesConn := by
  intro i s t h hchanged
  rcases exec_next h with ⟨_, _, _, _, rfl⟩ | ⟨_, _, _, _, _, rfl⟩ | ⟨_, _, _, _, _, rfl⟩ | ⟨_, _, rfl⟩ |
    ⟨_, _, rfl⟩ | ⟨_, _, _, rfl⟩ | ⟨x, hi, hv, -, rfl⟩
  case inr.inr.inr.inr.inr.inr => exact ⟨hi, rfl, hv, x, rfl⟩
  all_goals exact absurd rfl hchanged

/-- Settles O41, operation by operation: the decode operations only overwrite the port, and so do the reads and CONNECT. -/
theorem noOperationReadsTheResultPort : Obligations.NoOperationReadsTheResultPort := by
  intro i s r
  cases i with
  | readRawWord => exact readThen_withResult rawWordOf s r
  | isOpenCircuit w => rfl
  | decodeCelsius w => rfl
  | readCelsius => exact readThen_withResult celsiusOf s r
  | connect => exact execConnect_withResult s r

/-- Settles O18: with no command the step fetches nothing and idles. -/
theorem waitingChangesNothing : Obligations.WaitingChangesNothing := by
  intro s hcommands
  simp [step, fetch, hcommands, idle]

/-- Settles O28, one conjunct for each value of `CONN`. -/
theorem connDecidesTheChannel : Obligations.ConnDecidesTheChannel := by
  intro s
  refine ⟨fun hv => ⟨?_, channel_of_borrowed s hv⟩, fun hv => ⟨?_, channel_of_unconnected s hv⟩,
    fun x hv => ⟨?_, channel_of_connected s x hv⟩⟩
  · simp [State.handleOwning, hv]
  · simp [State.handleOwning, hv]
  · simp [State.handleOwning, hv]

/-- Settles O35: `State.reset` is one of the reset states. -/
theorem invariantAtReset : Obligations.InvariantAtReset :=
  ⟨resetWith_inv _ _, resetWith_inv⟩

end Sys2Proof

/-! ## Proofs of the memory family (spec/20_memory.md): over-long replies, the causes of a stop, the history of a run -/

namespace Sys2Proof.Machine

/-! ### The stops: what makes an operation refuse or fault -/

/-- Both reads are the common part of the reads, each with its own reading of the reply. -/
theorem exec_of_isRead {i : Instr} (h : IsRead i) : ∃ eval, ∀ s, exec i s = readThen eval s := by
  rcases h with rfl | rfl
  · exact ⟨rawWordOf, exec_readRawWord⟩
  · exact ⟨celsiusOf, exec_readCelsius⟩

/-- A reply of more than 2 bytes makes the `ChanRead(2)` over-long (spec/20_memory.md R28). -/
theorem chanRead_of_overlong (ch : ChannelRef) {s : State} {bytes : List Byte} {rest : List (Answer ReadReply)}
    (ha : s.readAnswers = .replied (.ok bytes) :: rest) (hlong : 2 < bytes.length) :
    chanRead ch s = .overlong bytes.length := by
  have hshape : replyShape? (.ok bytes) = none := (replyShape?_eq_none_iff _).mpr ⟨bytes, rfl, hlong⟩
  simp [chanRead, ha, hshape, replyLength]

/-- A read with a channel refuses a reply of more than 2 bytes. -/
theorem readThen_of_overlong (eval : FrameReply → Except OpError Payload) {s : State} {ch : ChannelRef}
    {bytes : List Byte} {rest : List (Answer ReadReply)} (hc : s.channel = some ch)
    (ha : s.readAnswers = .replied (.ok bytes) :: rest) (hlong : 2 < bytes.length) :
    readThen eval s = .refused (.overlongReply bytes.length) := by
  simp [readThen, hc, chanRead_of_overlong ch ha hlong]

/-- CONNECT refuses only where it is not admitted (spec/30_encoding.md R50, spec/42_connection.md R79). -/
theorem execConnect_refused {s : State} {r : Refusal} (h : execConnect s = .refused r) :
    (r = .connectReserved ∧ s.variant = .borrowed) ∨
    (r = .connectWhileConnected ∧ s.reconnect = .notAdmitted ∧ ∃ x, s.variant = .handleOwning (.connected x)) := by
  rcases execConnect_cases s with ⟨hv, he⟩ | ⟨hv, hr, he⟩ | ⟨-, -, he⟩ <;> rw [he] at h
  · cases h
    exact .inl ⟨rfl, hv⟩
  · cases h
    exact .inr ⟨rfl, hr, hv⟩
  · exact absurd h openThenConnect_not_refused

/-- CONNECT faults only when the environment is silent. -/
theorem execConnect_fault {s : State} {r : Fault} (h : execConnect s = .fault r) :
    s.openAnswers.head? = some .silent := by
  rcases execConnect_cases s with ⟨-, he⟩ | ⟨-, -, he⟩ | ⟨-, -, he⟩ <;> rw [he] at h
  · cases h
  · cases h
  · exact openThenConnect_fault h

/-- A read or CONNECT is all that can stop: the decode operations complete. -/
theorem isRead_or_connect_of_not_next {i : Instr} {s : State} (h : ∀ t, exec i s ≠ .next t) :
    IsRead i ∨ i = .connect := by
  cases i with
  | readRawWord => exact .inl (.inl rfl)
  | readCelsius => exact .inl (.inr rfl)
  | connect => exact .inr rfl
  | isOpenCircuit w => exact absurd (exec_isOpenCircuit w s) (h _)
  | decodeCelsius w => exact absurd (exec_decodeCelsius w s) (h _)

/-! ### The history: how it grows over an operation, a step and a run -/

/-- Whether a block can have made a call depends on its HANDLE_OWNING only. -/
theorem CallFits.of_same_config {v v' : Variant} (hv : v = .borrowed ↔ v' = .borrowed) {c : ChanCall}
    (h : CallFits v c) : CallFits v' c := by
  rcases c with ⟨_ | x, n⟩ | ⟨path, settings⟩ <;> simpa only [CallFits, ne_eq, hv] using h

/-- From `s` to `t` the block kept its HANDLE_OWNING and made at most `n` calls, each one it can make. -/
structure HistoryGrows (n : ℕ) (s t : State) : Prop where
  sameConfig : t.variant = .borrowed ↔ s.variant = .borrowed
  calls : ∃ made : List ChanCall, t.calls = s.calls ++ made ∧ made.length ≤ n ∧ ∀ c ∈ made, CallFits s.variant c

/-- A state with the same history. -/
theorem HistoryGrows.of_no_call {s t : State} (n : ℕ) (hv : t.variant = s.variant) (hcalls : t.calls = s.calls) :
    HistoryGrows n s t :=
  ⟨by rw [hv], [], by simp [hcalls]⟩

/-- A state with one call more. -/
theorem HistoryGrows.of_call {s t : State} {c : ChanCall} (hv : t.variant = .borrowed ↔ s.variant = .borrowed)
    (hcalls : t.calls = s.calls ++ [c]) (hfits : CallFits s.variant c) : HistoryGrows 1 s t :=
  ⟨hv, [c], hcalls, le_rfl, by simpa using hfits⟩

/-- The calls of two stretches are those of the first, then those of the second. -/
theorem HistoryGrows.trans {m n : ℕ} {s t u : State} (hst : HistoryGrows m s t) (htu : HistoryGrows n t u) :
    HistoryGrows (m + n) s u := by
  obtain ⟨hv, first, hfirst, hm, hfitsFirst⟩ := hst
  obtain ⟨hv', second, hsecond, hn, hfitsSecond⟩ := htu
  refine ⟨hv'.trans hv, first ++ second, ?_, ?_, ?_⟩
  · rw [hsecond, hfirst, List.append_assoc]
  · rw [List.length_append]
    exact Nat.add_le_add hm hn
  · exact List.forall_mem_append.mpr ⟨hfitsFirst, fun c hc => (hfitsSecond c hc).of_same_config hv⟩

/-- An operation that completes makes at most one call (spec/20_memory.md R36). -/
theorem exec_historyGrows {i : Instr} {s t : State} (h : exec i s = .next t) : HistoryGrows 1 s t := by
  rcases exec_next h with ⟨r, -, -, -, rfl⟩ | ⟨ch, f, -, hc, -, rfl⟩ | ⟨ch, f, -, hc, -, rfl⟩ | ⟨w, -, rfl⟩ |
    ⟨w, -, rfl⟩ | ⟨c, -, hv, rfl⟩ | ⟨x, -, hv, -, rfl⟩
  · exact .of_no_call 1 rfl rfl
  · exact .of_call Iff.rfl rfl (callKept_read hc).fits
  · exact .of_call Iff.rfl rfl (callKept_read hc).fits
  · exact .of_no_call 1 rfl rfl
  · exact .of_no_call 1 rfl rfl
  · exact .of_call Iff.rfl rfl (callKept_open s.reconnect hv).fits
  · exact .of_call (by simp [hv]) rfl (callKept_open s.reconnect hv).fits

/-- A step waits, which makes no call, or completes the operation it took. -/
theorem step_historyGrows {s t : State} (h : step s = .next t) : HistoryGrows 1 s t := by
  rcases step_next h with ⟨-, rfl⟩ | ⟨w, rest, i, -, -, hexec⟩
  · exact .of_no_call 1 rfl rfl
  · obtain ⟨hv, hcalls⟩ := exec_historyGrows hexec
    exact ⟨hv, hcalls⟩

/-- A run of `k + 1` steps that goes on is a step that goes on, then a run of `k` steps. -/
theorem run_succ_next {M : Host.Core} {k : ℕ} {s t : M.State} (h : M.run (k + 1) s = .next t) :
    ∃ u, M.step s = .next u ∧ M.run k u = .next t := by
  rw [Host.Core.run] at h
  split at h
  · next u hstep => exact ⟨u, hstep, h⟩
  · cases h
  · cases h

/-- A run of `k` steps makes at most `k` calls. -/
theorem run_historyGrows (k : ℕ) {s t : State} (h : Sys2Proof.core.run k s = .next t) : HistoryGrows k s t := by
  induction k generalizing s with
  | zero =>
    cases h
    exact .of_no_call 0 rfl rfl
  | succ k ih =>
    obtain ⟨u, hstep, hrun⟩ := run_succ_next h
    exact Nat.add_comm 1 k ▸ (step_historyGrows hstep).trans (ih hrun)

end Sys2Proof.Machine

namespace Sys2Proof

open Sys2Proof.Machine

/-- Settles O45, by induction on the number of steps: each step adds at most one call and keeps HANDLE_OWNING, so the calls
of the later steps also fit the block that started. -/
theorem runsOnlyExtendTheHistory : Obligations.RunsOnlyExtendTheHistory :=
  fun k _ _ h => (run_historyGrows k h).calls

/-- Settles O30: the decode operations never stop, a read stops on the reply it meets, CONNECT where it is not admitted or
meets silence. -/
theorem stopsHaveTheirCause : Obligations.StopsHaveTheirCause := by
  constructor
  · intro i s r h
    rcases isRead_or_connect_of_not_next (i := i) (s := s) (by simp [h]) with hread | rfl
    · obtain ⟨eval, he⟩ := exec_of_isRead hread
      obtain ⟨bytes, rest, ha, hr, hlong⟩ := readThen_refused ((he s).symm.trans h)
      exact .inr (.inr ⟨bytes, rest, hr, hread, hlong, ha⟩)
    · rcases execConnect_refused h with ⟨hr, hv⟩ | ⟨hr, hrc, hv⟩
      · exact .inl ⟨hr, rfl, hv⟩
      · exact .inr (.inl ⟨hr, rfl, hrc, hv⟩)
  · intro i s r h
    rcases isRead_or_connect_of_not_next (i := i) (s := s) (by simp [h]) with hread | rfl
    · obtain ⟨eval, he⟩ := exec_of_isRead hread
      exact .inl ⟨hread, readThen_fault ((he s).symm.trans h)⟩
    · exact .inr ⟨rfl, execConnect_fault h⟩

/-- Settles O26: both reads are the common part of the reads, which refuses the over-long reply. -/
theorem overlongReplyIsRefused : Obligations.OverlongReplyIsRefused := by
  intro s i ch bytes rest hread hc ha hlong
  obtain ⟨eval, he⟩ := exec_of_isRead hread
  rw [he s]
  exact readThen_of_overlong eval hc ha hlong

end Sys2Proof

/-! ## Proofs of the encoding family (spec/30_encoding.md): the fields of a word, decoding, READ_CELSIUS as a script, the two
shapes of the block -/

namespace Sys2Proof.Machine

/-! ### The fields of a word and their masks (spec/30_encoding.md R44) -/

/-- The mask of the field of `len` bits that begins at bit `start`. -/
def fieldMask (start len : ℕ) : RawWord := (BitVec.allOnes len).setWidth 16 <<< start

/-- A field's mask has exactly the field's bits. -/
theorem getLsbD_fieldMask (start len i : ℕ) :
    (fieldMask start len).getLsbD i = decide (start ≤ i ∧ i < start + len ∧ i < 16) := by
  rw [fieldMask, BitVec.getLsbD_shiftLeft, BitVec.getLsbD_setWidth, BitVec.getLsbD_allOnes, Bool.eq_iff_iff]
  simp only [Bool.and_eq_true, Bool.not_eq_true', decide_eq_true_eq, decide_eq_false_iff_not]
  omega

/-- Masking a word with a field's mask keeps the field. -/
theorem extractLsb'_and_fieldMask {start len : ℕ} (h : start + len ≤ 16) (w : RawWord) :
    (w &&& fieldMask start len).extractLsb' start len = w.extractLsb' start len := by
  refine BitVec.eq_of_getLsbD_eq fun i hi => ?_
  have hbit : (fieldMask start len).getLsbD (start + i) = true := by
    rw [getLsbD_fieldMask, decide_eq_true_eq]
    omega
  simp [hbit]

/-- A field is zero exactly when the word masked with its mask is. -/
theorem extractLsb'_eq_zero_iff {start len : ℕ} (h : start + len ≤ 16) (w : RawWord) :
    w.extractLsb' start len = 0#len ↔ w &&& fieldMask start len = 0#16 := by
  constructor
  · intro hfield
    refine BitVec.eq_of_getLsbD_eq fun i hi => ?_
    rw [BitVec.getLsbD_and, getLsbD_fieldMask, BitVec.getLsbD_zero]
    by_cases hin : start ≤ i ∧ i < start + len
    · have hbit := congrArg (·.getLsbD (i - start)) hfield
      have hlen : i - start < len := by omega
      simp only [BitVec.getLsbD_extractLsb', hlen, decide_true, Bool.true_and, BitVec.getLsbD_zero,
        Nat.add_sub_cancel' hin.1] at hbit
      rw [hbit, Bool.false_and]
    · simp [← and_assoc, hin]
  · intro hmasked
    rw [← extractLsb'_and_fieldMask h, hmasked, BitVec.extractLsb'_zero]

theorem signMask_eq : 0x8000#16 = fieldMask 15 1 := by decide
theorem magMask_eq : 0x7FF8#16 = fieldMask 3 12 := by decide
theorem faultMask_eq : 0x0004#16 = fieldMask 2 1 := by decide
theorem idMask_eq : 0x0002#16 = fieldMask 1 1 := by decide
theorem triStateMask_eq : 0x0001#16 = fieldMask 0 1 := by decide
theorem tempMask_eq : Config.tempMask = fieldMask 0 12 := by decide

/-- The five fields put back in their order are the word: each begins where the next one ends. -/
theorem fields_append (w : RawWord) :
    signField w ++ magField w ++ faultField w ++ idField w ++ triStateField w = w := by
  have hmag : signField w ++ magField w = w.extractLsb' 3 13 := BitVec.extractLsb'_append_extractLsb'_eq_extractLsb' rfl
  have hfault : w.extractLsb' 3 13 ++ faultField w = w.extractLsb' 2 14 :=
    BitVec.extractLsb'_append_extractLsb'_eq_extractLsb' rfl
  have hid : w.extractLsb' 2 14 ++ idField w = w.extractLsb' 1 15 :=
    BitVec.extractLsb'_append_extractLsb'_eq_extractLsb' rfl
  have htri : w.extractLsb' 1 15 ++ triStateField w = w.extractLsb' 0 16 :=
    BitVec.extractLsb'_append_extractLsb'_eq_extractLsb' rfl
  rw [hmag, hfault, hid, htri, BitVec.extractLsb'_eq_self]

/-! ### The fault flag and the magnitude by their fields (spec/30_encoding.md R46) -/

/-- The fault flag is the test of the rule. -/
theorem faultFlag_iff (w : RawWord) : faultFlag w = true ↔ w &&& 0x0004#16 ≠ 0#16 := bne_iff_ne

/-- The fault flag says whether the fault field is set. -/
theorem faultFlag_eq_faultField (w : RawWord) : faultFlag w = (faultField w != 0#1) := by
  rw [Bool.eq_iff_iff, faultFlag_iff, faultMask_eq, bne_iff_ne]
  exact (not_congr (extractLsb'_eq_zero_iff (by decide) w)).symm

/-- The fault flag is bit 2. -/
theorem faultFlag_eq_getLsbD (w : RawWord) : faultFlag w = w.getLsbD 2 := by
  rw [faultFlag_eq_faultField, BitVec.getLsbD_eq_extractLsb']
  change (faultField w != 0#1) = (faultField w == 1#1)
  generalize faultField w = f
  revert f
  decide

/-- The magnitude is the magnitude field. -/
theorem magnitude_eq_magField (w : RawWord) : magnitude w = magField w := by
  refine BitVec.eq_of_getLsbD_eq fun i hi => ?_
  have h16 : i < 16 := by omega
  simp [magnitude, magField, Config.tempShift, tempMask_eq, getLsbD_fieldMask, hi, h16]

/-- The magnitude, zero-extended, is the word shifted and masked. -/
theorem setWidth_magnitude (w : RawWord) :
    (magnitude w).setWidth 16 = (w >>> Config.tempShift) &&& Config.tempMask := by
  refine BitVec.eq_of_getLsbD_eq fun i hi => ?_
  by_cases h12 : i < 12
  · simp [magnitude, hi, h12]
  · simp [tempMask_eq, getLsbD_fieldMask, h12, BitVec.getLsbD_of_ge (magnitude w) i (Nat.le_of_not_lt h12)]

/-- The two bytes of a frame, bit by bit (spec/30_encoding.md R45). -/
theorem getLsbD_assembleWord (b0 b1 : Byte) {i : ℕ} (hi : i < 8) :
    (assembleWord b0 b1).getLsbD (8 + i) = b0.getLsbD i ∧ (assembleWord b0 b1).getLsbD i = b1.getLsbD i := by
  have hhigh : 8 + i < 16 := by omega
  have hlow : i < 16 := by omega
  constructor
  · simp [assembleWord, hi, hhigh]
  · simp [assembleWord, hi, hlow]

/-! ### The common part of the reads: where it stops does not depend on what it makes of the reply -/

/-- A read with a channel that stays silent never returns (spec/70_reset_and_hazards.md R109). -/
theorem readThen_of_silent (eval : FrameReply → Except OpError Payload) {s : State} {ch : ChannelRef}
    (hc : s.channel = some ch) (ha : s.readAnswers.head? = some .silent) :
    readThen eval s = .fault .operationNeverReturns := by
  obtain ⟨rest, hrest⟩ := List.head?_eq_some_iff.mp ha
  simp [readThen, hc, chanRead, hrest]

/-- A read that stops has a channel. -/
theorem exists_channel_of_not_next {eval : FrameReply → Except OpError Payload} {s : State}
    (h : ∀ t, readThen eval s ≠ .next t) : ∃ ch, s.channel = some ch :=
  Option.ne_none_iff_exists'.mp fun hnone => h _ (readThen_of_no_channel eval hnone)

/-- Where a read is refused: it has a channel, and the next answer is an over-long reply. -/
theorem readThen_refused_iff (eval : FrameReply → Except OpError Payload) (s : State) (r : Refusal) :
    readThen eval s = .refused r ↔ (∃ ch, s.channel = some ch) ∧
      ∃ bytes rest, s.readAnswers = .replied (.ok bytes) :: rest ∧ r = .overlongReply bytes.length ∧
        2 < bytes.length := by
  constructor
  · exact fun h => ⟨exists_channel_of_not_next (eval := eval) (by simp [h]), readThen_refused h⟩
  · rintro ⟨⟨ch, hc⟩, bytes, rest, ha, rfl, hlong⟩
    exact readThen_of_overlong eval hc ha hlong

/-- Where a read never returns: it has a channel, and the next answer is silence. -/
theorem readThen_fault_iff (eval : FrameReply → Except OpError Payload) (s : State) (r : Fault) :
    readThen eval s = .fault r ↔ (∃ ch, s.channel = some ch) ∧ s.readAnswers.head? = some .silent := by
  constructor
  · exact fun h => ⟨exists_channel_of_not_next (eval := eval) (by simp [h]), readThen_fault h⟩
  · rintro ⟨⟨ch, hc⟩, ha⟩
    cases r
    exact readThen_of_silent eval hc ha

/-! ### READ_CELSIUS as a reading of what READ_RAW_WORD reads (spec/30_encoding.md R56) -/

/-- Of any reply both reads make the same error, one that READ_RAW_WORD may answer with, or READ_RAW_WORD makes a word and
READ_CELSIUS what the tests on that word give. -/
theorem rawWordOf_cases (f : FrameReply) :
    (∃ e, MayAnswer .readRawWord (.error e) ∧ rawWordOf f = .error e ∧ celsiusOf f = .error e) ∨
    (∃ w, rawWordOf f = .ok (.word w) ∧
      celsiusOf f = if faultFlag w then .error .openCircuit else .ok (.celsius (celsiusOfWord w))) := by
  cases f with
  | err c => exact .inl ⟨.transport c, trivial, rfl, rfl⟩
  | empty => exact .inl ⟨.noData, trivial, rfl, rfl⟩
  | short b0 => exact .inl ⟨.noData, trivial, rfl, rfl⟩
  | frame b0 b1 => exact .inr ⟨assembleWord b0 b1, rfl, rfl⟩

/-- Where READ_RAW_WORD completes, READ_CELSIUS passes its error on or goes on with its word as the host script does. -/
theorem readCelsius_of_readRawWord_next {s u : State} (h : exec .readRawWord s = .next u) :
    (∃ e, u.result = some (.error e) ∧ MayAnswer .readRawWord (.error e) ∧ exec .readCelsius s = .next u) ∨
    (∃ w, u.result = some (.ok (.word w)) ∧
      exec .readCelsius s = if faultFlag w then .next (raise .openCircuit u) else exec (.decodeCelsius w) u) := by
  rcases readThen_next h with ⟨hc, rfl⟩ | ⟨ch, f, hc, hf, rfl⟩
  · exact .inl ⟨.notConnected, rfl, trivial, readThen_of_no_channel celsiusOf hc⟩
  · have hcelsius := readThen_of_nextReply celsiusOf hc hf
    rcases rawWordOf_cases f with ⟨e, hmay, hraw, hcel⟩ | ⟨w, hraw, hcel⟩
    · refine .inl ⟨e, by simp [hraw], hmay, ?_⟩
      rw [exec_readCelsius, hcelsius, hcel, hraw]
    · refine .inr ⟨w, by simp [hraw], ?_⟩
      rw [exec_readCelsius, hcelsius, hcel]
      cases faultFlag w <;> rfl

/-! ### The two shapes of the block (spec/30_encoding.md R57) -/

/-- An operation but CONNECT that completes in a block that has a channel leaves its shape as it is, makes the operation's
call on that channel, and completes alike in a block that differs in its shape and its channel. -/
theorem exec_next_of_other_shape {i : Instr} {s t : State} {v : Variant} {ch ch' : ChannelRef} (hi : i ≠ .connect)
    (hc : s.channel = some ch) (hc' : State.channel { s with variant := v } = some ch') (h : exec i s = .next t) :
    t.variant = s.variant ∧ t.calls = s.calls ++ callsOn ch i ∧
    exec i { s with variant := v } = .next { t with variant := v, calls := s.calls ++ callsOn ch' i } := by
  rcases exec_next h with ⟨_, -, hnone, -, -⟩ | ⟨c, f, rfl, hsome, hf, rfl⟩ | ⟨c, f, rfl, hsome, hf, rfl⟩ |
    ⟨w, rfl, rfl⟩ | ⟨w, rfl, rfl⟩ | ⟨_, hconnect, -⟩ | ⟨_, hconnect, -⟩
  · simp [hc] at hnone
  · cases hc.symm.trans hsome
    exact ⟨rfl, rfl, readThen_of_nextReply rawWordOf hc' hf⟩
  · cases hc.symm.trans hsome
    exact ⟨rfl, rfl, readThen_of_nextReply celsiusOf hc' hf⟩
  · simp [callsOn, ret]
  · simp [callsOn, ret]
  · exact absurd hconnect hi
  · exact absurd hconnect hi

/-- Where such an operation is refused does not depend on the shape of the block, as long as it has a channel. -/
theorem exec_refused_iff_of_other_shape {i : Instr} {s : State} {v : Variant} {ch ch' : ChannelRef} (hi : i ≠ .connect)
    (hc : s.channel = some ch) (hc' : State.channel { s with variant := v } = some ch') (r : Refusal) :
    exec i s = .refused r ↔ exec i { s with variant := v } = .refused r := by
  cases i with
  | readRawWord => simp [readThen_refused_iff, hc, hc']
  | readCelsius => simp [readThen_refused_iff, hc, hc']
  | isOpenCircuit w => simp
  | decodeCelsius w => simp
  | connect => exact absurd rfl hi

/-- Nor does where it never returns. -/
theorem exec_fault_iff_of_other_shape {i : Instr} {s : State} {v : Variant} {ch ch' : ChannelRef} (hi : i ≠ .connect)
    (hc : s.channel = some ch) (hc' : State.channel { s with variant := v } = some ch') (r : Fault) :
    exec i s = .fault r ↔ exec i { s with variant := v } = .fault r := by
  cases i with
  | readRawWord => simp [readThen_fault_iff, hc, hc']
  | readCelsius => simp [readThen_fault_iff, hc, hc']
  | isOpenCircuit w => simp
  | decodeCelsius w => simp
  | connect => exact absurd rfl hi

end Sys2Proof.Machine

namespace Sys2Proof

open Sys2Proof.Machine

/-! ### Decoding by operation code and operand (spec/30_encoding.md R47, R48) -/

/-- The operation code of an operation. -/
def Instr.opcode : Instr → BitVec 3
  | .readRawWord     => 0b000#3
  | .isOpenCircuit _ => 0b001#3
  | .decodeCelsius _ => 0b010#3
  | .readCelsius     => 0b011#3
  | .connect         => 0b100#3

/-- The word of an operation is its code and its operand, ARG being zero where it has none. -/
theorem encode_eq_commandWord (i : Instr) : encode i = commandWord i.opcode (i.operand?.getD 0x0000#16) := by
  cases i <;> rfl

/-- A word decodes to the operation that exists, has the word's code and, if it has an operand, has ARG for it. -/
theorem decode_commandWord_eq_instr_iff (owning : Bool) (op : BitVec 3) (x : RawWord) (i : Instr) :
    decode owning (commandWord op x) = .instr i ↔
      i.wellFormed owning = true ∧ op = i.opcode ∧ ∀ y, i.operand? = some y → x = y := by
  rw [decode_commandWord]
  constructor
  · intro h
    split_ifs at h with h0 h1 h2 h3 h4 howning
    · cases h; exact ⟨rfl, h0, by simp [Instr.operand?]⟩
    · cases h; exact ⟨rfl, h1, by simp [Instr.operand?]⟩
    · cases h; exact ⟨rfl, h2, by simp [Instr.operand?]⟩
    · cases h; exact ⟨rfl, h3, by simp [Instr.operand?]⟩
    · cases h; exact ⟨howning, h4, by simp [Instr.operand?]⟩
  · rintro ⟨hwf, rfl, hx⟩
    cases i with
    | readRawWord => rfl
    | isOpenCircuit w => simp [Instr.opcode, hx w rfl]
    | decodeCelsius w => simp [Instr.opcode, hx w rfl]
    | readCelsius => rfl
    | connect => simpa [Instr.opcode, Instr.wellFormed] using hwf

/-- The row of an operation in the opcode table. -/
def Instr.row (i : Instr) : OpcodeRow := ⟨i.mnemonic, commandWord i.opcode 0x0000#16, 0x70000#19⟩

/-- The only row of the table with the operation's mnemonic is its own. -/
theorem mem_opcodeTable_and_mnemonic_iff (i : Instr) (r : OpcodeRow) :
    r ∈ opcodeTable ∧ r.mnemonic = i.mnemonic ↔ r = i.row := by
  have hmem : i.row ∈ opcodeTable := by
    cases i <;> simp [opcodeTable, Instr.row, Instr.mnemonic, Instr.opcode, commandWord]
  have hunique : ∀ r ∈ opcodeTable, ∀ q ∈ opcodeTable, r.mnemonic = q.mnemonic → r = q := by decide
  constructor
  · rintro ⟨hr, hmnemonic⟩
    exact hunique r hr i.row hmem hmnemonic
  · rintro rfl
    exact ⟨hmem, rfl⟩

/-- A word is one of the operation's row exactly when its code is the operation's. -/
theorem row_matchesWord_iff (i : Instr) (op : BitVec 3) (x : RawWord) :
    i.row.matchesWord (commandWord op x) = true ↔ op = i.opcode := by
  simp only [OpcodeRow.matchesWord, Instr.row, commandWord_and_mask, beq_iff_eq]
  constructor
  · intro h
    rw [← opField_commandWord op 0x0000#16, h, opField_commandWord]
  · rintro rfl
    rfl

/-- The table has a row of the operation's mnemonic that matches the word exactly when the word has the operation's code. -/
theorem exists_row_matchesWord_iff (i : Instr) (op : BitVec 3) (x : RawWord) :
    (∃ r ∈ opcodeTable, r.mnemonic = i.mnemonic ∧ r.matchesWord (commandWord op x) = true) ↔ op = i.opcode := by
  simp only [← and_assoc, mem_opcodeTable_and_mnemonic_iff, exists_eq_left, row_matchesWord_iff]

/-- Every operation exists in the handle-owning configuration. -/
theorem wellFormed_true (i : Instr) : i.wellFormed true = true := by
  cases i <;> rfl

/-- A code that is none of the five operations' is one of the three reserved ones. -/
theorem reservedCode_of_ne {op : BitVec 3} (h0 : op ≠ 0b000#3) (h1 : op ≠ 0b001#3) (h2 : op ≠ 0b010#3)
    (h3 : op ≠ 0b011#3) (h4 : op ≠ 0b100#3) : op = 0b101#3 ∨ op = 0b110#3 ∨ op = 0b111#3 := by
  bv_omega

/-- The words that are invalid (spec/30_encoding.md R50). -/
theorem decode_commandWord_eq_invalid_iff (owning : Bool) (op : BitVec 3) (x : RawWord) :
    (∃ e, decode owning (commandWord op x) = .invalid e) ↔
      (op = 0b101#3 ∨ op = 0b110#3 ∨ op = 0b111#3 ∨ (op = 0b100#3 ∧ owning = false)) := by
  rw [decode_commandWord]
  constructor
  · rintro ⟨e, h⟩
    split_ifs at h with h0 h1 h2 h3 h4 howning
    · exact .inr (.inr (.inr ⟨h4, Bool.eq_false_of_not_eq_true howning⟩))
    · rcases reservedCode_of_ne h0 h1 h2 h3 h4 with h5 | h6 | h7
      · exact .inl h5
      · exact .inr (.inl h6)
      · exact .inr (.inr (.inl h7))
  · rintro (rfl | rfl | rfl | ⟨rfl, rfl⟩)
    · exact ⟨.reservedCode 0b101#3, rfl⟩
    · exact ⟨.reservedCode 0b110#3, rfl⟩
    · exact ⟨.reservedCode 0b111#3, rfl⟩
    · exact ⟨.connectReserved, rfl⟩

/-! ### The host's hook: table words (spec/30_encoding.md R47) -/

/-- An operation is read from a table word that is a command word and decodes to it in the reset configuration. -/
theorem decodeTableWord_eq_some {nbits w : ℕ} {i : Instr} (h : decodeTableWord nbits w = some i) :
    ∃ c, cmdWordOfNat (w % 2 ^ nbits) = some c ∧ decode Config.handleOwningAtReset c = .instr i := by
  unfold decodeTableWord at h
  rcases hc : cmdWordOfNat (w % 2 ^ nbits) with _ | c
  · simp [hc] at h
  · refine ⟨c, rfl, ?_⟩
    rcases hd : decode Config.handleOwningAtReset c with j | e
    · simpa [hc, hd, Decoded.instr?] using h
    · simp [hc, hd, Decoded.instr?] at h

/-- The hook presents the table word that is a command word. -/
theorem withFetchWord_eq_present (s : State) {nbits w : ℕ} {c : CmdWord} (h : cmdWordOfNat (w % 2 ^ nbits) = some c) :
    s.withFetchWord nbits w = present c s := by
  simp [State.withFetchWord, presentTableWord, h]

/-! ### The obligations -/

/-- Settles O11: the word of an operation has its code and its operand. -/
theorem decodeOfEncode : Obligations.DecodeOfEncode := by
  intro owning i hwf
  rw [encode_eq_commandWord, decode_commandWord_eq_instr_iff]
  exact ⟨hwf, rfl, fun y hy => by rw [hy, Option.getD_some]⟩

/-- Settles O1: the fields are consecutive, and each mask is the mask of its field. -/
theorem wordFieldsPartitionTheWord : Obligations.WordFieldsPartitionTheWord := by
  refine ⟨fun w => (fields_append w).symm, fun w => ?_, by decide⟩
  rw [signMask_eq, magMask_eq, faultMask_eq, idMask_eq, triStateMask_eq]
  exact ⟨extractLsb'_eq_zero_iff (by decide) w, extractLsb'_eq_zero_iff (by decide) w,
    extractLsb'_eq_zero_iff (by decide) w, extractLsb'_eq_zero_iff (by decide) w,
    extractLsb'_eq_zero_iff (by decide) w⟩

/-- Settles O2: the formula is the definition; bit by bit the two halves do not overlap. -/
theorem frameIsAssembledBigEndian : Obligations.FrameIsAssembledBigEndian :=
  ⟨fun _ _ => rfl, fun b0 b1 _ hi => getLsbD_assembleWord b0 b1 hi, by decide⟩

/-- Settles O3: the flag and the magnitude are the fields at bit 2 and at bits 14 to 3. -/
theorem faultAndMagnitudeAreExtracted : Obligations.FaultAndMagnitudeAreExtracted := fun w =>
  ⟨Bool.eq_iff_iff.mpr ((faultFlag_iff w).trans decide_eq_true_iff.symm), faultFlag_eq_getLsbD w, setWidth_magnitude w,
    magnitude_eq_magField w⟩

/-- Settles O5: each is a field, which masking with the field's mask keeps. -/
theorem unusedWordBitsAreIgnored : Obligations.UnusedWordBitsAreIgnored := by
  refine ⟨fun w => ⟨?_, ?_⟩, by decide⟩
  · rw [faultFlag_eq_faultField, faultFlag_eq_faultField, faultMask_eq, faultField, faultField,
      extractLsb'_and_fieldMask (by decide)]
  · rw [magnitude_eq_magField, magnitude_eq_magField, magMask_eq, magField, magField,
      extractLsb'_and_fieldMask (by decide)]

/-- Settles O12: the table and the decoder both look at the operation code, and the word is its code and ARG. -/
theorem decodeFollowsTheOpcodeTable : Obligations.DecodeFollowsTheOpcodeTable := by
  intro w i
  obtain ⟨op, x, rfl⟩ : ∃ op x, w = commandWord op x := ⟨_, _, (commandWord_fields w).symm⟩
  rw [decode_commandWord_eq_instr_iff, exists_row_matchesWord_iff, argField_commandWord]
  exact and_iff_right (wellFormed_true i)

/-- Settles O13: the two codes that look at ARG are excluded, and the step looks at the word through the decoder only. -/
theorem unusedArgumentIsIgnored : Obligations.UnusedArgumentIsIgnored := by
  intro owning op x y h1 h2
  have hdecode : decode owning (commandWord op x) = decode owning (commandWord op y) := by
    simp only [decode_commandWord, h1, h2, if_false]
  refine ⟨hdecode, ?_⟩
  rintro s rfl
  rw [step_present, step_present, hdecode]

/-- Settles O14: the step refuses by the decoder's verdict. -/
theorem reservedCodesAreRefused : Obligations.ReservedCodesAreRefused := by
  refine ⟨decode_commandWord_eq_invalid_iff, ?_, ?_⟩
  · intro s op x hop
    rw [step_present, decode_commandWord]
    rcases hop with rfl | rfl | rfl <;> rfl
  · intro s x hv
    have howning : s.handleOwning = false := by simp [State.handleOwning, hv]
    rw [step_present, decode_commandWord, howning]
    rfl

/-- Settles O43: READ_CELSIUS follows the script where READ_RAW_WORD completes, and the two stop on the same answers. -/
theorem readCelsiusComposesTheOthers : Obligations.ReadCelsiusComposesTheOthers := by
  refine ⟨fun s u h => ?_, fun s r => ?_, fun s r => ?_⟩
  · rcases readCelsius_of_readRawWord_next h with ⟨e, hu, hmay, hcelsius⟩ | ⟨w, hu, hcelsius⟩
    · exact ⟨by simp [hu], fun _ _ => hcelsius, _, hu, hmay⟩
    · refine ⟨fun w' hw' => ?_, by simp [hu], _, hu, trivial⟩
      obtain rfl : w = w' := by simpa [hu] using hw'
      rcases hfault : faultFlag w with _ | _
      · exact .inr ⟨by simp [hfault, ret], by simpa [hfault] using hcelsius⟩
      · exact .inl ⟨by simp [hfault, ret], by simpa [hfault, raise] using hcelsius⟩
  · exact (readThen_refused_iff rawWordOf s r).trans (readThen_refused_iff celsiusOf s r).symm
  · exact (readThen_fault_iff rawWordOf s r).trans (readThen_fault_iff celsiusOf s r).symm

/-- Settles O44: both shapes have a channel, and going to the other shape and back is no change. -/
theorem bothShapesComputeTheSame : Obligations.BothShapesComputeTheSame := by
  intro i s x hi hv c
  have hs : s.channel = some .attached := channel_of_borrowed s hv
  have hc : c.channel = some (.owned x) := channel_of_connected c x rfl
  have hback : { c with variant := .borrowed } = s := by rw [← hv]
  refine ⟨fun t ht => ?_, fun u hu => ?_, exec_refused_iff_of_other_shape hi hs hc,
    exec_fault_iff_of_other_shape hi hs hc⟩
  · rw [← hv]
    exact exec_next_of_other_shape hi hs hc ht
  · obtain ⟨hvariant, hcalls, hexec⟩ := exec_next_of_other_shape hi hc (hback ▸ hs) hu
    exact ⟨hvariant, hcalls, hback ▸ hexec⟩

/-- Settles O17: the hook presents the command word that the decoder read. -/
theorem fetchWordIsRunNext : Obligations.FetchWordIsRunNext := by
  intro s nbits w i hs h
  obtain ⟨c, hc, hd⟩ := decodeTableWord_eq_some h
  rw [withFetchWord_eq_present s hc, step_present, hs, hd]

end Sys2Proof

/-! ## Proofs of the frame-reader family (spec/40_frame_reader.md): the result of READ_RAW_WORD, the call of each operation -/

namespace Sys2Proof.Machine

/-! ### A read with a channel, by the answer its call meets -/

/-- A read whose next answer is a reply of one of the four shapes takes it. -/
theorem readThen_of_replied (eval : FrameReply → Except OpError Payload) {s : State} {ch : ChannelRef} {reply : ReadReply}
    {rest : List (Answer ReadReply)} {f : FrameReply} (hc : s.channel = some ch)
    (ha : s.readAnswers = .replied reply :: rest) (hf : replyShape? reply = some f) :
    readThen eval s = .next (s.afterRead ch rest (resultOf (eval f))) := by
  have hr : s.nextReply = some f := by simp [State.nextReply, ha, hf]
  simp [readThen_of_nextReply eval hc hr, State.afterRead, ha]

/-- A read past the end of the answers takes the free reply (log entry 3). -/
theorem readThen_of_no_answers (eval : FrameReply → Except OpError Payload) {s : State} {ch : ChannelRef}
    (hc : s.channel = some ch) (ha : s.readAnswers = []) :
    readThen eval s = .next (s.afterRead ch [] (resultOf (eval (Config.freeReadReply s.calls.length)))) := by
  have hr : s.nextReply = some (Config.freeReadReply s.calls.length) := by simp [State.nextReply, ha]
  simp [readThen_of_nextReply eval hc hr, State.afterRead, ha]

/-! ### The call of CONNECT -/

/-- A CONNECT that completes has made one `ChanOpen`, whatever the reply (spec/42_connection.md R76). -/
theorem execConnect_next_calls {s t : State} (h : execConnect s = .next t) :
    t.calls = s.calls ++ [.open_ Config.devicePath Config.spi] := by
  rcases execConnect_cases s with ⟨-, he⟩ | ⟨-, -, he⟩ | ⟨-, -, he⟩ <;> rw [he] at h
  · cases h
  · cases h
  · rcases openThenConnect_next h with ⟨c, rfl⟩ | ⟨x, rfl⟩ <;> rfl

end Sys2Proof.Machine

namespace Sys2Proof

open Sys2Proof.Machine

/-- Settles O19: READ_RAW_WORD is the common part of the reads, and the result is what it makes of the reply's shape. -/
theorem readRawWordResult : Obligations.ReadRawWordResult := by
  refine ⟨fun owning arg => ?_, fun s hv => ?_, fun s ch rest hc => ⟨fun c ha => ?_, fun ha => ?_, fun b0 ha => ?_,
    fun b0 b1 ha => ?_⟩, fun s ch hc ha => ?_⟩
  · exact (decode_commandWord_eq_instr_iff owning _ arg .readRawWord).mpr ⟨rfl, rfl, by simp [Instr.operand?]⟩
  · exact readThen_of_no_channel rawWordOf ((channel_eq_none_iff s).mpr hv)
  · exact readThen_of_replied rawWordOf (f := .err c) hc ha rfl
  · exact readThen_of_replied rawWordOf (f := .empty) hc ha rfl
  · exact readThen_of_replied rawWordOf (f := .short b0) hc ha rfl
  · exact readThen_of_replied rawWordOf (f := .frame b0 b1) hc ha rfl
  · rw [exec_readRawWord, readThen_of_no_answers rawWordOf hc ha]
    cases Config.freeReadReply s.calls.length <;> rfl

/-- Settles O36: a read reaches the channel it has, CONNECT opens one, and a decode operation writes the result port only. -/
theorem atMostOneCallPerOperation : Obligations.AtMostOneCallPerOperation := by
  intro i s t h
  refine ⟨fun hread => ?_, ?_, fun hnotRead hnotConnect => ?_⟩
  · obtain ⟨eval, he⟩ := exec_of_isRead hread
    rcases readThen_next ((he s).symm.trans h) with ⟨hc, rfl⟩ | ⟨ch, f, hc, -, rfl⟩
    · simp [hc]
    · simp [hc]
  · rintro rfl
    exact execConnect_next_calls h
  · cases i with
    | readRawWord => exact absurd (.inl rfl) hnotRead
    | readCelsius => exact absurd (.inr rfl) hnotRead
    | connect => exact absurd rfl hnotConnect
    | isOpenCircuit w => cases h; rfl
    | decodeCelsius w => cases h; rfl

end Sys2Proof

/-! ## Proofs of the word-decoder family (spec/41_word_decoder.md): the magnitude as a number, the temperature as a bit pattern,
the results of the decode operations and of READ_CELSIUS -/

namespace Sys2Proof.Machine

/-! ### Words as numbers: shifts that lose no bit, and bits that do not overlap -/

/-- A shift that pushes no bit out of the word is a multiplication. -/
theorem toNat_shiftLeft_of_lt {n i : ℕ} {x : BitVec n} (hx : x.toNat * 2 ^ i < 2 ^ n) :
    (x <<< i).toNat = x.toNat * 2 ^ i := by
  rw [BitVec.toNat_shiftLeft, Nat.shiftLeft_eq, Nat.mod_eq_of_lt hx]

/-- What stands below the bits of a shifted word is added to it. -/
theorem toNat_shiftLeft_or {n i : ℕ} {x y : BitVec n} (hx : x.toNat * 2 ^ i < 2 ^ n) (hy : y.toNat < 2 ^ i) :
    (x <<< i ||| y).toNat = x.toNat * 2 ^ i + y.toNat := by
  rw [BitVec.toNat_or, toNat_shiftLeft_of_lt hx, ← Nat.shiftLeft_eq, Nat.shiftLeft_add_eq_or_of_lt hy]

/-- Masking a word with a field's mask leaves the field, at its place. -/
theorem and_fieldMask {start len : ℕ} (h : start + len ≤ 16) (w : RawWord) :
    w &&& fieldMask start len = (w.extractLsb' start len).setWidth 16 <<< start := by
  refine BitVec.eq_of_getLsbD_eq fun i hi => ?_
  rw [BitVec.getLsbD_and, getLsbD_fieldMask, BitVec.getLsbD_shiftLeft, BitVec.getLsbD_setWidth,
    BitVec.getLsbD_extractLsb']
  by_cases hstart : start ≤ i
  · have hlen : i < start + len ↔ i - start < len := by omega
    have hi' : i - start < 16 := by omega
    simp [hi, hi', hstart, hlen, Nat.not_lt.mpr hstart, Bool.and_comm]
  · simp [hstart, Nat.not_le.mp hstart]

/-! ### The magnitude as a number (spec/41_word_decoder.md R68) -/

/-- The magnitude is the value of D14 to D0 divided by 8. -/
theorem toNat_magnitude (w : RawWord) : (magnitude w).toNat = w.toNat % 32768 / 8 := by
  rw [magnitude_eq_magField, magField, BitVec.extractLsb'_toNat, Nat.shiftRight_eq_div_pow]
  omega

/-- A word masked to its magnitude field is worth 8 times the magnitude. -/
theorem toNat_and_magMask (w : RawWord) : (w &&& 0x7FF8#16).toNat = (magnitude w).toNat * 8 := by
  have hwidth : ((magnitude w).setWidth 16).toNat = (magnitude w).toNat := BitVec.toNat_setWidth_of_le (by decide)
  have hfit : ((magnitude w).setWidth 16).toNat * 2 ^ 3 < 2 ^ 16 := by omega
  rw [magMask_eq, and_fieldMask (by decide), ← magField, ← magnitude_eq_magField, toNat_shiftLeft_of_lt hfit, hwidth]
  omega

/-- The value of the word that is built from a magnitude and a fault bit. -/
theorem toNat_conformingWord (m : Magnitude) (f : BitVec 1) :
    ((m.setWidth 16 <<< 3) ||| (f.setWidth 16 <<< 2) : RawWord).toNat = m.toNat * 8 + f.toNat * 4 := by
  have hm : (m.setWidth 16).toNat = m.toNat := BitVec.toNat_setWidth_of_le (by decide)
  have hf : (f.setWidth 16).toNat = f.toNat := BitVec.toNat_setWidth_of_le (by decide)
  have hlow : (f.setWidth 16 <<< 2).toNat = f.toNat * 4 := by
    rw [toNat_shiftLeft_of_lt (by omega), hf]
    omega
  rw [toNat_shiftLeft_or (by omega) (by omega), hm, hlow]
  omega

/-- The fault bit of the word that is built from a magnitude and a fault bit. -/
theorem faultFlag_conformingWord (m : Magnitude) (f : BitVec 1) :
    faultFlag ((m.setWidth 16 <<< 3) ||| (f.setWidth 16 <<< 2)) = decide (f = 1#1) := by
  have hbit : f.getLsbD 0 = decide (f = 1#1) := by revert f; decide
  rw [faultFlag_eq_getLsbD, ← hbit]
  simp

/-- The fault flag as the Boolean of the rule's test. -/
theorem faultFlag_eq_decide (w : RawWord) : faultFlag w = decide (w &&& 0x0004#16 ≠ 0#16) :=
  Bool.eq_iff_iff.mpr ((faultFlag_iff w).trans decide_eq_true_iff.symm)

/-- The rejected 13-bit mask keeps D15: it leaves the whole word divided by 8 (spec/41_word_decoder.md R73). -/
theorem toNat_rejectedMask (w : RawWord) : ((w >>> 3) &&& 0x1FFF#16).toNat = w.toNat / 8 := by
  have hmask : (0x1FFF#16).toNat = 2 ^ 13 - 1 := rfl
  rw [BitVec.toNat_and, hmask, Nat.and_two_pow_sub_one_eq_mod, BitVec.toNat_ushiftRight, Nat.shiftRight_eq_div_pow]
  omega

/-! ### The temperature as a bit pattern (spec/41_word_decoder.md R70; binary64, log entry 7) -/

/-- The highest set bit of a magnitude is one of its 12. -/
theorem highestBit_lt {m : Magnitude} {k : ℕ} (hlow : 2 ^ k ≤ m.toNat) : k < 12 :=
  (Nat.pow_lt_pow_iff_right (by decide)).mp (hlow.trans_lt m.isLt)

/-- The fields of the temperature of a magnitude with highest bit `k`. -/
theorem q2ToF64_of_highestBit {m : Magnitude} {k : ℕ} (hlow : 2 ^ k ≤ m.toNat) (hhigh : m.toNat < 2 ^ (k + 1)) :
    q2ToF64 m =
      f64OfFields 0#1 (BitVec.ofNat 11 (1021 + k)) (BitVec.ofNat 52 ((m.toNat - 2 ^ k) * 2 ^ (52 - k))) := by
  have hpos : 0 < m.toNat := (Nat.two_pow_pos k).trans_le hlow
  have hm : m ≠ 0#12 := by rintro rfl; simp at hpos
  have hlog : m.toNat.log2 = k := (Nat.log2_eq_iff hpos.ne').mpr ⟨hlow, hhigh⟩
  simp only [q2ToF64, hm, if_false, hlog, Nat.shiftLeft_eq]

theorem q2ToF64_zero : q2ToF64 0#12 = 0#64 := rfl

/-- A magnitude is zero or has a highest bit. -/
theorem eq_zero_or_exists_highestBit (m : Magnitude) :
    m = 0#12 ∨ ∃ k, 2 ^ k ≤ m.toNat ∧ m.toNat < 2 ^ (k + 1) := by
  by_cases hm : m = 0#12
  · exact .inl hm
  · have hne : m.toNat ≠ 0 := fun h => hm (BitVec.eq_of_toNat_eq h)
    exact .inr ⟨m.toNat.log2, Nat.log2_self_le hne, Nat.lt_log2_self⟩

/-- A positive number's bits: the exponent field above the fraction field. -/
theorem toNat_f64OfFields_of_positive {e f : ℕ} (he : e < 2048) (hf : f < 2 ^ 52) :
    (f64OfFields 0#1 (BitVec.ofNat 11 e) (BitVec.ofNat 52 f)).toNat = e * 2 ^ 52 + f := by
  have hexponent : (BitVec.ofNat 11 e).toNat = e := Nat.mod_eq_of_lt he
  have hfraction : (BitVec.ofNat 52 f).toNat = f := Nat.mod_eq_of_lt hf
  rw [f64OfFields, BitVec.toNat_append, BitVec.toNat_append, hexponent, hfraction, BitVec.toNat_zero, Nat.zero_shiftLeft,
    Nat.zero_or, ← Nat.shiftLeft_add_eq_or_of_lt hf, Nat.shiftLeft_eq]

/-- The bits of the temperature of a magnitude with highest bit `k`, as a number. -/
theorem toNat_q2ToF64 {m : Magnitude} {k : ℕ} (hlow : 2 ^ k ≤ m.toNat) (hhigh : m.toNat < 2 ^ (k + 1)) :
    (q2ToF64 m).toNat = (1021 + k) * 2 ^ 52 + (m.toNat - 2 ^ k) * 2 ^ (52 - k) := by
  have hk := highestBit_lt hlow
  rw [q2ToF64_of_highestBit hlow hhigh, toNat_f64OfFields_of_positive (by omega)
    (fraction_of_normalised_lt hhigh (by omega))]

/-- The bits put together by shifts, as the rule writes them. -/
theorem q2ToF64_eq_shifts {m : Magnitude} {k : ℕ} (hlow : 2 ^ k ≤ m.toNat) (hhigh : m.toNat < 2 ^ (k + 1)) :
    q2ToF64 m = (BitVec.ofNat 64 (1021 + k) <<< 52) ||| (BitVec.ofNat 64 (m.toNat - 2 ^ k) <<< (52 - k)) := by
  have hk := highestBit_lt hlow
  have hfraction := fraction_of_normalised_lt hhigh (show k ≤ 52 by omega)
  have hexponent : (BitVec.ofNat 64 (1021 + k)).toNat = 1021 + k := Nat.mod_eq_of_lt (by omega)
  have hrest : (BitVec.ofNat 64 (m.toNat - 2 ^ k)).toNat = m.toNat - 2 ^ k := Nat.mod_eq_of_lt (by omega)
  have hshifted : (BitVec.ofNat 64 (m.toNat - 2 ^ k) <<< (52 - k)).toNat = (m.toNat - 2 ^ k) * 2 ^ (52 - k) := by
    rw [toNat_shiftLeft_of_lt (by rw [hrest]; omega), hrest]
  refine BitVec.eq_of_toNat_eq ?_
  rw [toNat_q2ToF64 hlow hhigh, toNat_shiftLeft_or (by omega) (by omega), hexponent, hshifted]

/-- A larger magnitude has a larger bit pattern: its highest bit is higher, which the exponent field shows, or the same, and
then the fraction is larger. -/
theorem q2ToF64_strictMono {m n : Magnitude} (h : m < n) : q2ToF64 m < q2ToF64 n := by
  have hmn : m.toNat < n.toNat := h
  rw [BitVec.lt_def]
  rcases eq_zero_or_exists_highestBit n with rfl | ⟨k, hlow, hhigh⟩
  · exact absurd hmn (Nat.not_lt_zero _)
  rw [toNat_q2ToF64 hlow hhigh]
  rcases eq_zero_or_exists_highestBit m with rfl | ⟨j, hlow', hhigh'⟩
  · simp only [q2ToF64_zero, BitVec.toNat_zero]
    omega
  rw [toNat_q2ToF64 hlow' hhigh']
  have hj := highestBit_lt hlow'
  have hjk : j < k + 1 := (Nat.pow_lt_pow_iff_right (by decide)).mp (hlow'.trans_lt (hmn.trans hhigh))
  rcases Nat.lt_succ_iff_lt_or_eq.mp hjk with hlt | rfl
  · have hfraction := fraction_of_normalised_lt hhigh' (show j ≤ 52 by omega)
    omega
  · have hfraction : (m.toNat - 2 ^ j) * 2 ^ (52 - j) < (n.toNat - 2 ^ j) * 2 ^ (52 - j) :=
      Nat.mul_lt_mul_of_pos_right (by omega) (Nat.two_pow_pos _)
    omega

/-- The bit patterns are in the order of the magnitudes. -/
theorem lt_iff_q2ToF64_lt (m n : Magnitude) : m < n ↔ q2ToF64 m < q2ToF64 n := by
  refine ⟨q2ToF64_strictMono, fun h => ?_⟩
  rcases Nat.lt_trichotomy m.toNat n.toNat with hmn | heq | hnm
  · exact hmn
  · exact absurd (BitVec.eq_of_toNat_eq heq ▸ h) (BitVec.lt_irrefl _)
  · exact absurd (q2ToF64_strictMono hnm) (BitVec.lt_asymm h)

/-- A temperature is positive zero, or a positive normal number (spec/41_word_decoder.md R71). -/
theorem q2ToF64_ordinary (m : Magnitude) :
    f64Sign (q2ToF64 m) = 0#1 ∧ f64Exponent (q2ToF64 m) ≠ 0x7FF#11 ∧
    (f64Exponent (q2ToF64 m) = 0#11 → q2ToF64 m = 0#64) := by
  rcases eq_zero_or_exists_highestBit m with rfl | ⟨k, hlow, hhigh⟩
  · rw [q2ToF64_zero]
    decide
  · have hk := highestBit_lt hlow
    rw [q2ToF64_of_highestBit hlow hhigh, f64Sign_f64OfFields, f64Exponent_f64OfFields]
    have hfinite : BitVec.ofNat 11 (1021 + k) ≠ 0x7FF#11 := by bv_omega
    have hnormal : BitVec.ofNat 11 (1021 + k) ≠ 0#11 := by bv_omega
    exact ⟨rfl, hfinite, fun hzero => absurd hzero hnormal⟩

/-- The temperature of a word is its magnitude divided by 4. -/
theorem f64Value_celsiusOfWord (w : RawWord) : f64Value (celsiusOfWord w) = some (((magnitude w).toNat : ℚ) * (1 / 4)) :=
  f64Value_q2ToF64 (magnitude w)

/-- The magnitude in quarters: whole degrees in D14 to D5, a half in D4, a quarter in D3 (spec/41_word_decoder.md R74). -/
theorem toNat_magnitude_eq_quarters (w : RawWord) :
    (magnitude w).toNat = (w.extractLsb' 5 10).toNat * 4 + (w.extractLsb' 4 1).toNat * 2 + (w.extractLsb' 3 1).toNat := by
  simp only [toNat_magnitude, BitVec.extractLsb'_toNat, Nat.shiftRight_eq_div_pow]
  omega

/-! ### What READ_CELSIUS makes of a frame (spec/41_word_decoder.md R67) -/

/-- On a complete frame READ_CELSIUS answers OPEN_CIRCUIT or the temperature, by the rule's test of the word. -/
theorem resultOf_celsiusOf_frame (b0 b1 : Byte) :
    resultOf (celsiusOf (.frame b0 b1)) =
      if assembleWord b0 b1 &&& 0x0004#16 ≠ 0#16 then .error .openCircuit
      else .ok (.celsius (celsiusOfWord (assembleWord b0 b1))) := by
  simp only [celsiusOf, frameWord, faultFlag_iff]
  split <;> rfl

end Sys2Proof.Machine

namespace Sys2Proof

open Sys2Proof.Machine

/-- Settles O4: all three laws are about the words' values, in which shifts and masks are divisions and remainders. -/
theorem magnitudeLaws : Obligations.MagnitudeLaws := by
  refine ⟨fun w => ⟨toNat_magnitude w, magnitude_eq_magField w⟩, fun v w h => ?_, fun m f => ⟨?_, ?_, ?_⟩⟩
  · rw [BitVec.le_def, toNat_and_magMask, toNat_and_magMask] at h
    exact BitVec.le_def.mpr (Nat.le_of_mul_le_mul_right h (by decide))
  · refine BitVec.eq_of_toNat_eq ?_
    rw [toNat_magnitude, toNat_conformingWord]
    omega
  · exact faultFlag_conformingWord m f
  · have hbound : m.toNat * 8 + f.toNat * 4 ≤ 0x7FFC := by omega
    rwa [BitVec.le_def, toNat_conformingWord]

/-- Settles O6: one mask leaves `w % 32768 / 8`, the other `w / 8`, and D15 is worth 32768. -/
theorem rejectedMaskIsNotUsed : Obligations.RejectedMaskIsNotUsed := by
  intro w
  have hD15 : w.getLsbD 15 = decide (32768 ≤ w.toNat) := w.msb_eq_decide
  refine ⟨setWidth_magnitude w, fun h => ?_, fun h => ?_⟩
  · have hlt : ¬ 32768 ≤ w.toNat := of_decide_eq_false (hD15.symm.trans h)
    rw [toNat_rejectedMask, toNat_magnitude]
    omega
  · have hge : 32768 ≤ w.toNat := of_decide_eq_true (hD15.symm.trans h)
    have hlarger : ((w >>> 3) &&& 0x1FFF#16).toNat = (magnitude w).toNat + 4096 := by
      rw [toNat_rejectedMask, toNat_magnitude]
      omega
    refine ⟨hlarger, ?_⟩
    rw [hlarger]
    push_cast
    ring

/-- Settles O7: the value of zero, and of a normal number with exponent `1021 + k`. -/
theorem scalingIsExact : Obligations.ScalingIsExact := f64Value_q2ToF64

/-- Settles O8: both sides have the same value, the exponent field and the fraction field not overlapping. -/
theorem celsiusBitPattern : Obligations.CelsiusBitPattern :=
  ⟨q2ToF64_zero, fun _ _ hlow hhigh => q2ToF64_eq_shifts hlow hhigh⟩

/-- Settles O9: the exponent is between 1021 and 1032 but for zero, and grows with the highest bit. -/
theorem celsiusIsAlwaysAnOrdinaryNumber : Obligations.CelsiusIsAlwaysAnOrdinaryNumber :=
  ⟨fun w => q2ToF64_ordinary (magnitude w), lt_iff_q2ToF64_lt⟩

/-- Settles O10: the three fields are the magnitude, in quarters of a degree. -/
theorem fixedPointView : Obligations.FixedPointView := by
  constructor
  · intro w
    rw [f64Value_celsiusOfWord, toNat_magnitude_eq_quarters, Option.some_inj]
    push_cast
    ring
  · have hmagnitude : (magnitude 0x0190#16).toNat = 50 := by decide
    rw [f64Value_celsiusOfWord, hmagnitude]
    norm_num

/-- Settles O20: the operation delivers the fault flag, which is the test of the rule and bit 2. -/
theorem isOpenCircuitResult : Obligations.IsOpenCircuitResult := by
  refine ⟨fun owning w => ?_, fun w s => ?_, fun w => ?_⟩
  · exact (decode_commandWord_eq_instr_iff owning _ w (.isOpenCircuit w)).mpr ⟨rfl, rfl, by simp [Instr.operand?]⟩
  · rw [exec_isOpenCircuit, faultFlag_eq_decide, ret]
  · rw [← faultFlag_eq_decide, faultFlag_eq_getLsbD]

/-- Settles O21: the result is the temperature of the word, a quarter of its magnitude, which is at most 4095. -/
theorem decodeCelsiusResult : Obligations.DecodeCelsiusResult := by
  refine ⟨fun owning w => ?_, fun w s => ?_⟩
  · exact (decode_commandWord_eq_instr_iff owning _ w (.decodeCelsius w)).mpr ⟨rfl, rfl, by simp [Instr.operand?]⟩
  · have hmagnitude : ((w >>> 3) &&& 0x0FFF#16).toNat = (magnitude w).toNat :=
      (congrArg BitVec.toNat (setWidth_magnitude w)).symm.trans (BitVec.toNat_setWidth_of_le (by decide))
    have hmax : ((magnitude w).toNat : ℚ) ≤ 4095 := by exact_mod_cast Nat.le_of_lt_succ (magnitude w).isLt
    rw [hmagnitude]
    exact ⟨celsiusOfWord w, exec_decodeCelsius w s, rfl, f64Value_celsiusOfWord w, by positivity, by linarith⟩

/-- Settles O22: READ_CELSIUS is the common part of the reads, and the result is what it makes of the reply's shape. -/
theorem readCelsiusResult : Obligations.ReadCelsiusResult := by
  refine ⟨fun owning arg => ?_, fun s hv => ?_, fun s ch rest hc => ⟨fun c ha => ?_, fun ha => ?_, fun b0 ha => ?_,
    fun b0 b1 ha => ?_⟩, fun s ch hc ha => ?_⟩
  · exact (decode_commandWord_eq_instr_iff owning _ arg .readCelsius).mpr ⟨rfl, rfl, by simp [Instr.operand?]⟩
  · exact readThen_of_no_channel celsiusOf ((channel_eq_none_iff s).mpr hv)
  · exact readThen_of_replied celsiusOf (f := .err c) hc ha rfl
  · exact readThen_of_replied celsiusOf (f := .empty) hc ha rfl
  · exact readThen_of_replied celsiusOf (f := .short b0) hc ha rfl
  · rw [exec_readCelsius, readThen_of_replied celsiusOf (f := .frame b0 b1) hc ha rfl, resultOf_celsiusOf_frame]
    rfl
  · rw [exec_readCelsius, readThen_of_no_answers celsiusOf hc ha]
    cases Config.freeReadReply s.calls.length with
    | err c => rfl
    | empty => rfl
    | short b0 => rfl
    | frame b0 b1 => rw [resultOf_celsiusOf_frame]; rfl

/-- Settles O42: the result each delivers is a function of the word, and the result port is all it writes. -/
theorem decodeOperationsArePure : Obligations.DecodeOperationsArePure := fun w =>
  ⟨⟨.bool (faultFlag w), exec_isOpenCircuit w⟩, ⟨.celsius (celsiusOfWord w), exec_decodeCelsius w⟩⟩

end Sys2Proof

/-! ## Proofs of the connection family (spec/42_connection.md): what CONNECT leaves, `CONN` over a step, reads after CONNECT -/

namespace Sys2Proof.Machine

/-! ### The body of CONNECT, by the answer its call meets -/

/-- `s` after a `ChanOpen` that met `reply`, the answers `rest` being left: the transport error with `CONN` as it was, or the
handle stored (spec/42_connection.md R77). -/
def State.afterOpenReply (s : State) (rest : List (Answer OpenReply)) : OpenReply → State
  | .err c => s.afterOpen rest s.variant (.error (.transport c))
  | .ok x  => s.afterOpen rest (.handleOwning (.connected x)) (.ok .nothing)

/-- The body of CONNECT takes a reply that is listed. -/
theorem openThenConnect_of_replied {s : State} {reply : OpenReply} {rest : List (Answer OpenReply)}
    (ha : s.openAnswers = .replied reply :: rest) : openThenConnect s = .next (s.afterOpenReply rest reply) := by
  simp only [openThenConnect, chanOpen, ha]
  cases reply <;> rfl

/-- Past the end of the answers the body of CONNECT takes the free reply (log entry 3). -/
theorem openThenConnect_of_no_answers {s : State} (ha : s.openAnswers = []) :
    openThenConnect s = .next (s.afterOpenReply [] (Config.freeOpenReply s.calls.length)) := by
  simp only [openThenConnect, chanOpen, ha]
  cases Config.freeOpenReply s.calls.length with
  | err c => simp [connectWith, raise, record, State.afterOpenReply, State.afterOpen, ha, spi_settings]
  | ok x => simp [connectWith, ret, record, State.afterOpenReply, State.afterOpen, ha, spi_settings]

/-- A CONNECT that completes was admitted, so it is its body. -/
theorem openThenConnect_of_execConnect_next {s t : State} (h : execConnect s = .next t) : openThenConnect s = .next t := by
  rcases execConnect_cases s with ⟨-, he⟩ | ⟨-, -, he⟩ | ⟨-, -, he⟩ <;> rw [he] at h
  · cases h
  · cases h
  · exact h

/-! ### `CONN` and RECONNECT over an operation and a step -/

/-- From `s` to `t` RECONNECT is kept, and the variant is kept unless a handle was stored where CONNECT is admitted. -/
structure ConnEvolves (s t : State) : Prop where
  reconnect : t.reconnect = s.reconnect
  variant : t.variant = s.variant ∨
    (s.variant = .handleOwning .unconnected ∨ s.reconnect = .replaceOnSuccess) ∧
      ∃ x, t.variant = .handleOwning (.connected x)

/-- Of the ways an operation completes, only the successful open, the last one, stores a handle. -/
theorem exec_connEvolves {i : Instr} {s t : State} (h : exec i s = .next t) : ConnEvolves s t := by
  rcases exec_next h with ⟨_, _, _, _, rfl⟩ | ⟨_, _, _, _, _, rfl⟩ | ⟨_, _, _, _, _, rfl⟩ | ⟨_, _, rfl⟩ |
    ⟨_, _, rfl⟩ | ⟨_, _, _, rfl⟩ | ⟨x, -, -, hadmitted, rfl⟩
  case inr.inr.inr.inr.inr.inr => exact ⟨rfl, .inr ⟨hadmitted, x, rfl⟩⟩
  all_goals exact ⟨rfl, .inl rfl⟩

/-- A step waits, or completes the operation it took from a state that differs in its commands only. -/
theorem step_connEvolves {s t : State} (h : step s = .next t) : ConnEvolves s t := by
  rcases step_next h with ⟨-, rfl⟩ | ⟨w, rest, i, -, -, hexec⟩
  · exact ⟨rfl, .inl rfl⟩
  · obtain ⟨hreconnect, hvariant⟩ := exec_connEvolves hexec
    exact ⟨hreconnect, hvariant⟩

/-- A step keeps HANDLE_OWNING. -/
theorem step_handleOwning {s t : State} (h : step s = .next t) : t.handleOwning = s.handleOwning := by
  rw [Bool.eq_iff_iff, handleOwning_eq_true_iff, handleOwning_eq_true_iff]
  exact not_congr (step_historyGrows h).sameConfig

end Sys2Proof.Machine

namespace Sys2Proof

open Sys2Proof.Machine

/-- Settles O33: a step that changes the variant stores a handle, and a connected block stores one only where RECONNECT is
admitted. -/
theorem connectedStaysConnected : Obligations.ConnectedStaysConnected := by
  intro s t h
  obtain ⟨hreconnect, hvariant⟩ := step_connEvolves h
  refine ⟨step_handleOwning h, hreconnect, fun x hx => ?_⟩
  rcases hvariant with hsame | ⟨hadmitted, hstored⟩
  · exact ⟨⟨x, hsame.trans hx⟩, fun _ => hsame.trans hx⟩
  · refine ⟨hstored, fun hnot => ?_⟩
    simp [hx, hnot] at hadmitted

/-- Settles O23: from Unconnected CONNECT is its body, which takes the listed or the free reply. -/
theorem connectResult : Obligations.ConnectResult := by
  refine ⟨fun arg => ?_, fun s rest hv => ⟨fun c ha => ?_, fun x ha => ?_⟩, fun s hv ha => ?_⟩
  · exact (decode_commandWord_eq_instr_iff true _ arg .connect).mpr ⟨rfl, rfl, by simp [Instr.operand?]⟩
  · rw [exec_connect, execConnect_of_admitted (.inl hv), openThenConnect_of_replied ha, State.afterOpenReply, hv]
  · rw [exec_connect, execConnect_of_admitted (.inl hv), openThenConnect_of_replied ha, State.afterOpenReply]
  · rw [exec_connect, execConnect_of_admitted (.inl hv), openThenConnect_of_no_answers ha, ← hv]
    cases Config.freeOpenReply s.calls.length <;> rfl

/-- Settles O47: a CONNECT that answered OK has stored the handle its reads go to; one that failed has left `CONN` as it was,
so that from Unconnected a read has no channel. -/
theorem connectIsTheCureForNotConnected : Obligations.ConnectIsTheCureForNotConnected := by
  intro s t h
  rcases openThenConnect_next (openThenConnect_of_execConnect_next h) with ⟨c, rfl⟩ | ⟨x, rfl⟩
  · refine ⟨fun hok => by simp at hok, fun _ hv i hread => ?_⟩
    obtain ⟨eval, he⟩ := exec_of_isRead hread
    rw [he]
    exact readThen_of_no_channel eval (channel_of_unconnected _ hv)
  · refine ⟨fun _ => ⟨x, rfl, fun i u hread hu => ?_⟩, fun hnot => absurd rfl hnot⟩
    obtain ⟨hreadCalls, -, -⟩ := atMostOneCallPerOperation i _ u hu
    exact hreadCalls hread

/-- Settles O24: `CONN` is Connected and RECONNECT is the spec's, so CONNECT has no meaning. -/
theorem connectWhileConnectedIsRefused : Obligations.ConnectWhileConnectedIsRefused := by
  intro s x hv hnot
  simp [execConnect, hv, hnot]

end Sys2Proof

/-! ## Proofs of the exceptions family (spec/60_exceptions.md): which results an operation answers with, what an error leaves,
causes passed on unread -/

namespace Sys2Proof

/-! ### Renaming the cause of one reply, on which the renaming of a state's answers rests -/

/-- Rename the cause of a reply to `ChanRead(2)`. -/
def ReadReply.rename (f : Cause → Cause) : ReadReply → ReadReply
  | .err c    => .err (f c)
  | .ok bytes => .ok bytes

/-- Rename the cause of a reply of one of the four shapes. -/
def FrameReply.rename (f : Cause → Cause) : FrameReply → FrameReply
  | .err c       => .err (f c)
  | .empty       => .empty
  | .short b0    => .short b0
  | .frame b0 b1 => .frame b0 b1

/-- Rename the cause of a reply to `ChanOpen`. -/
def OpenReply.rename (f : Cause → Cause) : OpenReply → OpenReply
  | .err c => .err (f c)
  | .ok x  => .ok x

end Sys2Proof

namespace Sys2Proof.Machine

/-! ### What the reads make of a reply -/

/-- READ_RAW_WORD with a channel answers with a word or an error its row allows (spec/60_exceptions.md R81). -/
theorem mayAnswer_rawWordOf (r : FrameReply) : MayAnswer .readRawWord (resultOf (rawWordOf r)) := by
  rcases rawWordOf_cases r with ⟨e, hmay, hraw, -⟩ | ⟨w, hraw, -⟩
  · exact hraw ▸ hmay
  · rw [hraw]
    trivial

/-- READ_CELSIUS with a channel answers with a temperature or an error. -/
theorem mayAnswer_celsiusOf (r : FrameReply) : MayAnswer .readCelsius (resultOf (celsiusOf r)) := by
  rcases rawWordOf_cases r with ⟨e, -, -, hcelsius⟩ | ⟨w, -, hcelsius⟩
  · rw [hcelsius]
    trivial
  · rw [hcelsius]
    split <;> trivial

/-- READ_CELSIUS makes OPEN_CIRCUIT of a reply exactly when it is a complete frame with D2 set (spec/60_exceptions.md R84). -/
theorem resultOf_celsiusOf_eq_openCircuit_iff (r : FrameReply) :
    resultOf (celsiusOf r) = .error .openCircuit ↔
      ∃ b0 b1, r = .frame b0 b1 ∧ assembleWord b0 b1 &&& 0x0004#16 ≠ 0#16 := by
  cases r with
  | err c => simp [celsiusOf, frameWord]
  | empty => simp [celsiusOf, frameWord]
  | short b0 => simp [celsiusOf, frameWord]
  | frame b0 b1 =>
    rw [resultOf_celsiusOf_frame]
    split <;> simp_all

/-! ### What an operation that completes has answered -/

/-- Every operation that completes answers with a result its row allows. -/
theorem exec_next_mayAnswer {i : Instr} {s t : State} (h : exec i s = .next t) : ∃ r, t.result = some r ∧ MayAnswer i r := by
  rcases exec_next h with ⟨_, rfl | rfl, -, rfl, rfl⟩ | ⟨ch, r, rfl, -, -, rfl⟩ | ⟨ch, r, rfl, -, -, rfl⟩ | ⟨w, rfl, rfl⟩ |
    ⟨w, rfl, rfl⟩ | ⟨c, rfl, -, rfl⟩ | ⟨x, rfl, -, -, rfl⟩
  · exact ⟨_, rfl, trivial⟩
  · exact ⟨_, rfl, trivial⟩
  · exact ⟨_, rfl, mayAnswer_rawWordOf r⟩
  · exact ⟨_, rfl, mayAnswer_celsiusOf r⟩
  · exact ⟨_, rfl, trivial⟩
  · exact ⟨_, rfl, trivial⟩
  · exact ⟨_, rfl, trivial⟩
  · exact ⟨_, rfl, trivial⟩

/-- NOT_CONNECTED is the answer of a read without a channel, which changed the result port only (spec/60_exceptions.md R85). -/
theorem exec_next_notConnected {i : Instr} {s t : State} (h : exec i s = .next t)
    (hr : t.result = some (.error .notConnected)) :
    IsRead i ∧ s.channel = none ∧ t = { s with result := some (.error .notConnected) } := by
  rcases exec_next h with ⟨_, hi, hc, rfl, rfl⟩ | ⟨ch, r, -, -, -, rfl⟩ | ⟨ch, r, -, -, -, rfl⟩ | ⟨w, -, rfl⟩ |
    ⟨w, -, rfl⟩ | ⟨c, -, -, rfl⟩ | ⟨x, -, -, -, rfl⟩
  · exact ⟨hi, hc, rfl⟩
  · cases (resultKept_rawWordOf .borrowed r).notConnected hr
  · cases (resultKept_celsiusOf .borrowed r).notConnected hr
  · cases hr
  · cases hr
  · cases hr
  · cases hr

/-- OPEN_CIRCUIT is in the row of READ_CELSIUS only. -/
theorem mayAnswer_openCircuit {i : Instr} (h : MayAnswer i (.error .openCircuit)) : i = .readCelsius := by
  cases i with
  | readCelsius => rfl
  | readRawWord => exact h.elim
  | isOpenCircuit w => exact h.elim
  | decodeCelsius w => exact h.elim
  | connect => exact h.elim

/-! ### Renaming causes, call by call -/

section
variable (f : Cause → Cause)

theorem readAnswer_rename_replied (r : ReadReply) : ReadAnswer.rename f (.replied r) = .replied (r.rename f) := by
  cases r <;> rfl

theorem openAnswer_rename_replied (r : OpenReply) : OpenAnswer.rename f (.replied r) = .replied (r.rename f) := by
  cases r <;> rfl

/-- Renaming the cause of a reply keeps its shape. -/
theorem replyShape?_rename (r : ReadReply) : replyShape? (r.rename f) = (replyShape? r).map (FrameReply.rename f) := by
  rcases r with c | (_ | ⟨b0, _ | ⟨b1, _ | ⟨b2, bs⟩⟩⟩) <;> rfl

/-- The state after a read on the renamed state is the renamed one. -/
theorem afterRead_renameCauses (s : State) (ch : ChannelRef) (rest : List (Answer ReadReply)) (r : OpResult) :
    (s.renameCauses f).afterRead ch (rest.map (ReadAnswer.rename f)) (r.rename f) =
      (s.afterRead ch rest r).renameCauses f := rfl

/-- The state after an open on the renamed state is the renamed one, whichever reply the open met. -/
theorem afterOpenReply_renameCauses (s : State) (rest : List (Answer OpenReply)) (r : OpenReply) :
    (s.renameCauses f).afterOpenReply (rest.map (OpenAnswer.rename f)) (r.rename f) =
      (s.afterOpenReply rest r).renameCauses f := by
  cases r <;> rfl

/-- What `eval` makes of a reply passes the reply's cause on without looking inside (spec/60_exceptions.md R82). -/
def PassesCausesOn (eval : FrameReply → Except OpError Payload) : Prop :=
  ∀ r : FrameReply, resultOf (eval (r.rename f)) = (resultOf (eval r)).rename f

theorem rawWordOf_passesCausesOn : PassesCausesOn f rawWordOf := by
  intro r
  cases r <;> rfl

theorem celsiusOf_passesCausesOn : PassesCausesOn f celsiusOf := by
  intro r
  cases r with
  | err c => rfl
  | empty => rfl
  | short b0 => rfl
  | frame b0 b1 =>
    rw [FrameReply.rename, resultOf_celsiusOf_frame]
    split <;> rfl

/-- A read that passes causes on commutes with their renaming, by the answer its call meets: none to make, silence, an
over-long reply, which carries no cause, or a reply of one of the four shapes. -/
theorem readThen_renameCauses {eval : FrameReply → Except OpError Payload} (heval : PassesCausesOn f eval) {s : State}
    (hlisted : s.channel ≠ none → s.readAnswers ≠ []) :
    readThen eval (s.renameCauses f) = renameOutcome f (readThen eval s) := by
  have hchannel : (s.renameCauses f).channel = s.channel := rfl
  have hanswers : (s.renameCauses f).readAnswers = s.readAnswers.map (ReadAnswer.rename f) := rfl
  rcases hc : s.channel with _ | ch
  case none =>
    rw [readThen_of_no_channel eval hc, readThen_of_no_channel eval (hchannel.trans hc)]
    rfl
  case some =>
    have hc' : (s.renameCauses f).channel = some ch := hchannel.trans hc
    rcases ha : s.readAnswers with _ | ⟨reply | _, rest⟩
    case nil => exact absurd ha (hlisted (by simp [hc]))
    case cons.silent =>
      rw [readThen_of_silent eval hc (by simp [ha]),
        readThen_of_silent eval hc' (by simp [hanswers, ha, ReadAnswer.rename])]
      rfl
    case cons.replied =>
      rcases hs : replyShape? reply with _ | r
      case none =>
        obtain ⟨bytes, rfl, hlong⟩ := (replyShape?_eq_none_iff reply).mp hs
        rw [readThen_of_overlong eval hc ha hlong,
          readThen_of_overlong eval hc' (by rw [hanswers, ha]; rfl) hlong]
        rfl
      case some =>
        have ha' : (s.renameCauses f).readAnswers = .replied (reply.rename f) :: rest.map (ReadAnswer.rename f) := by
          rw [hanswers, ha, List.map_cons, readAnswer_rename_replied]
        have hs' : replyShape? (reply.rename f) = some (r.rename f) := by rw [replyShape?_rename, hs]; rfl
        rw [readThen_of_replied eval hc ha hs, readThen_of_replied eval hc' ha' hs', heval r, afterRead_renameCauses]
        rfl

/-- The body of CONNECT never returns when the environment is silent (spec/70_reset_and_hazards.md R109). -/
theorem openThenConnect_of_silent {s : State} {rest : List (Answer OpenReply)} (ha : s.openAnswers = .silent :: rest) :
    openThenConnect s = .fault .operationNeverReturns := by
  simp [openThenConnect, chanOpen, ha]

/-- The body of CONNECT commutes with renaming causes, by the answer its call meets. -/
theorem openThenConnect_renameCauses {s : State} (hlisted : s.openAnswers ≠ []) :
    openThenConnect (s.renameCauses f) = renameOutcome f (openThenConnect s) := by
  have hanswers : (s.renameCauses f).openAnswers = s.openAnswers.map (OpenAnswer.rename f) := rfl
  rcases ha : s.openAnswers with _ | ⟨reply | _, rest⟩
  case nil => exact absurd ha hlisted
  case cons.silent =>
    rw [openThenConnect_of_silent ha, openThenConnect_of_silent (by rw [hanswers, ha]; rfl)]
    rfl
  case cons.replied =>
    have ha' : (s.renameCauses f).openAnswers = .replied (reply.rename f) :: rest.map (OpenAnswer.rename f) := by
      rw [hanswers, ha, List.map_cons, openAnswer_rename_replied]
    rw [openThenConnect_of_replied ha, openThenConnect_of_replied ha', afterOpenReply_renameCauses]
    rfl

/-- CONNECT commutes with renaming causes: whether it is admitted, and with which refusal it is not, depends on the variant
and RECONNECT, which hold no cause. -/
theorem execConnect_renameCauses {s : State} (hlisted : ConnectIsAdmitted s → s.openAnswers ≠ []) :
    execConnect (s.renameCauses f) = renameOutcome f (execConnect s) := by
  by_cases hadmitted : ConnectIsAdmitted s
  · have hadmitted' : ConnectIsAdmitted (s.renameCauses f) := hadmitted
    rw [execConnect_of_admitted hadmitted, execConnect_of_admitted hadmitted']
    exact openThenConnect_renameCauses f (hlisted hadmitted)
  · obtain ⟨r, hrefused⟩ := execConnect_of_not_admitted hadmitted
    rcases execConnect_refused hrefused with ⟨rfl, hv⟩ | ⟨rfl, hnot, x, hv⟩
    · simp [execConnect, hv, State.renameCauses, renameOutcome]
    · simp [execConnect, hv, hnot, State.renameCauses, renameOutcome]

end

end Sys2Proof.Machine

namespace Sys2Proof

open Sys2Proof.Machine

/-- Settles O37: the result of each of the ways an operation completes is in its row, and the codes are the model's. -/
theorem onlyTheAllowedResults : Obligations.OnlyTheAllowedResults :=
  ⟨fun _ _ _ h => exec_next_mayAnswer h, fun _ => rfl, rfl, rfl, rfl, fun _ => rfl⟩

/-- Settles O38: only a read without a channel answers NOT_CONNECTED, and such a read answers nothing else. -/
theorem notConnectedComesFirst : Obligations.NotConnectedComesFirst := by
  intro i s t h
  refine ⟨⟨fun hr => ?_, fun ⟨hread, hv⟩ => ?_⟩, fun hr => ?_⟩
  · obtain ⟨hread, hc, -⟩ := exec_next_notConnected h hr
    exact ⟨hread, (channel_eq_none_iff s).mp hc⟩
  · obtain ⟨eval, he⟩ := exec_of_isRead hread
    rw [he, readThen_of_no_channel eval (channel_of_unconnected s hv)] at h
    cases h
    rfl
  · obtain ⟨-, -, ht⟩ := exec_next_notConnected h hr
    exact ht

/-- Settles O39: the result of READ_CELSIUS is what it makes of the reply, and the other two operations see the same word. -/
theorem openCircuitExactlyOnAFaultyWord : Obligations.OpenCircuitExactlyOnAFaultyWord := by
  constructor
  · intro s t hchannel h
    rcases readThen_next h with ⟨hc, -⟩ | ⟨ch, r, -, hreply, rfl⟩
    · exact absurd hc hchannel
    · simpa [hreply] using resultOf_celsiusOf_eq_openCircuit_iff r
  · intro i s t h hr
    obtain ⟨_, hresult, hmay⟩ := exec_next_mayAnswer h
    cases hr.symm.trans hresult
    obtain rfl := mayAnswer_openCircuit hmay
    rcases readThen_next h with ⟨-, rfl⟩ | ⟨ch, r, hc, hreply, rfl⟩
    · cases hr
    · obtain ⟨b0, b1, rfl, hfault⟩ := (resultOf_celsiusOf_eq_openCircuit_iff r).mp (Option.some.inj hr)
      refine ⟨rfl, assembleWord b0 b1, hfault, readThen_of_nextReply rawWordOf hc hreply, ?_⟩
      rw [exec_isOpenCircuit, (faultFlag_iff _).mpr hfault]
      rfl

/-- Settles O40: an operation ends in an error without a call, after one read, or after one open; none of these writes the
variant, RECONNECT or the commands. -/
theorem errorsLeaveTheStateAlone : Obligations.ErrorsLeaveTheStateAlone := by
  intro i s t e h hr
  rcases exec_next h with ⟨_, -, -, -, rfl⟩ | ⟨ch, r, -, -, -, rfl⟩ | ⟨ch, r, -, -, -, rfl⟩ | ⟨w, -, rfl⟩ |
    ⟨w, -, rfl⟩ | ⟨c, -, -, rfl⟩ | ⟨x, -, -, -, rfl⟩
  · exact ⟨by rw [← hr], .inl rfl, .inl rfl, .inl rfl⟩
  · exact ⟨by rw [← hr], .inr ⟨_, rfl⟩, .inr rfl, .inl rfl⟩
  · exact ⟨by rw [← hr], .inr ⟨_, rfl⟩, .inr rfl, .inl rfl⟩
  · cases hr
  · cases hr
  · exact ⟨by rw [← hr], .inr ⟨_, rfl⟩, .inl rfl, .inr rfl⟩
  · cases hr

/-- Settles O46, operation by operation: the decode operations hold no cause, the reads and CONNECT pass theirs on. -/
theorem causesAreOpaque : Obligations.CausesAreOpaque := by
  intro f i s hread hconnect
  cases i with
  | readRawWord => exact readThen_renameCauses f (rawWordOf_passesCausesOn f) (hread (.inl rfl))
  | readCelsius => exact readThen_renameCauses f (celsiusOf_passesCausesOn f) (hread (.inr rfl))
  | isOpenCircuit w => rfl
  | decodeCelsius w => rfl
  | connect => exact execConnect_renameCauses f (hconnect rfl)

end Sys2Proof

/-! ## Proofs of the reset and hazards family (spec/70_reset_and_hazards.md): what reset leaves, the first operation after it,
a call that is never answered -/

namespace Sys2Proof.Machine

/-! ### The state that reset leaves, field by field -/

@[simp] theorem resetWith_true_variant (rc : Reconnect) :
    (State.resetWith true rc).variant = .handleOwning .unconnected := rfl
@[simp] theorem resetWith_false_variant (rc : Reconnect) : (State.resetWith false rc).variant = .borrowed := rfl
@[simp] theorem resetWith_readAnswers (owning : Bool) (rc : Reconnect) :
    (State.resetWith owning rc).readAnswers = [] := rfl
@[simp] theorem resetWith_openAnswers (owning : Bool) (rc : Reconnect) :
    (State.resetWith owning rc).openAnswers = [] := rfl
@[simp] theorem resetWith_result (owning : Bool) (rc : Reconnect) : (State.resetWith owning rc).result = none := rfl

/-- After reset a borrowed-channel block reads the channel it is attached to (spec/10_state.md R15). -/
theorem resetWith_false_channel (rc : Reconnect) : (State.resetWith false rc).channel = some .attached :=
  channel_of_borrowed _ (resetWith_false_variant rc)

/-! ### An Unconnected block -/

/-- Both reads of an Unconnected block answer NOT_CONNECTED and change nothing else (spec/60_exceptions.md R85). -/
theorem exec_read_of_unconnected {i : Instr} {s : State} (hread : IsRead i) (hv : s.variant = .handleOwning .unconnected) :
    exec i s = .next { s with result := some (.error .notConnected) } := by
  obtain ⟨eval, he⟩ := exec_of_isRead hread
  rw [he]
  exact readThen_of_no_channel eval (channel_of_unconnected s hv)

/-- An operation that was no successful CONNECT leaves the variant as it was. -/
theorem exec_keeps_variant_of_result_ne {i : Instr} {s t : State} (h : exec i s = .next t)
    (hresult : t.result ≠ some (.ok .nothing)) : t.variant = s.variant := by
  by_contra hchanged
  obtain ⟨-, hok, -⟩ := onlyASuccessfulConnectWritesConn i s t h hchanged
  exact hresult hok

end Sys2Proof.Machine

namespace Sys2Proof

open Sys2Proof.Machine

/-- Settles O50: an Unconnected block stays so until a CONNECT succeeds; where a call is made after reset, no answer is listed
and the free reply comes. -/
theorem firstOperationAfterReset : Obligations.FirstOperationAfterReset := by
  refine ⟨fun owning rc w => ?_, fun rc i hread => ?_, fun s t i j hv h hresult hread => ?_, fun rc => ?_,
    fun rc i hread => ?_⟩
  · exact ⟨_, _, exec_isOpenCircuit w _, exec_decodeCelsius w _⟩
  · exact exec_read_of_unconnected hread (resetWith_true_variant rc)
  · have ht : t.variant = .handleOwning .unconnected := (exec_keeps_variant_of_result_ne h hresult).trans hv
    exact exec_read_of_unconnected hread ht
  · rw [exec_connect, execConnect_of_admitted (.inl (resetWith_true_variant rc))]
    exact ⟨_, openThenConnect_of_no_answers (resetWith_openAnswers true rc)⟩
  · obtain ⟨eval, he⟩ := exec_of_isRead hread
    rw [he]
    exact ⟨_, readThen_of_no_answers eval (resetWith_false_channel rc) (resetWith_readAnswers false rc), rfl⟩

/-- Settles O27: each operation that makes a call is the common part of the reads or the body of CONNECT, which a silent
environment stops. -/
theorem unansweredCallNeverReturns : Obligations.UnansweredCallNeverReturns := by
  refine ⟨fun s i ch rest hread hc ha => ?_, fun s rest hadmitted ha => ?_⟩
  · obtain ⟨eval, he⟩ := exec_of_isRead hread
    rw [he]
    exact readThen_of_silent eval hc (by simp [ha])
  · rw [exec_connect, execConnect_of_admitted hadmitted]
    exact openThenConnect_of_silent ha

/-- Settles O48, field by field. -/
theorem resetLeavesUnconnected : Obligations.ResetLeavesUnconnected := fun rc =>
  ⟨resetWith_true_variant rc, resetWith_result true rc, resetWith_false_variant rc, resetWith_false_channel rc,
    resetWith_result false rc⟩

end Sys2Proof

/-! ## Proofs of the remaining statements: the command words of the spec's vectors, CONNECT while Connected -/

namespace Sys2Proof.Machine

/-- Where it is admitted CONNECT takes a reply that is listed. -/
theorem exec_connect_of_replied {s : State} {reply : OpenReply} {rest : List (Answer OpenReply)}
    (hadmitted : ConnectIsAdmitted s) (ha : s.openAnswers = .replied reply :: rest) :
    exec .connect s = .next (s.afterOpenReply rest reply) := by
  rw [exec_connect, execConnect_of_admitted hadmitted, openThenConnect_of_replied ha]

/-- Where it is admitted CONNECT takes the free reply past the end of the answers (log entry 3). -/
theorem exec_connect_of_no_answers {s : State} (hadmitted : ConnectIsAdmitted s) (ha : s.openAnswers = []) :
    exec .connect s = .next (s.afterOpenReply [] (Config.freeOpenReply s.calls.length)) := by
  rw [exec_connect, execConnect_of_admitted hadmitted, openThenConnect_of_no_answers ha]

end Sys2Proof.Machine

namespace Sys2Proof

open Sys2Proof.Machine

/-- Settles O25: RECONNECT admits CONNECT while Connected, and the variant that a failed open keeps is the connected one. -/
theorem reconnectReplacesOnSuccess : Obligations.ReconnectReplacesOnSuccess := by
  have hadmitted {s : State} {x : Handle} (hv : s.variant = .handleOwning (.connected x))
      (hr : s.reconnect = .replaceOnSuccess) : ConnectIsAdmitted s := .inr ⟨hr, x, hv⟩
  refine ⟨fun s x rest hv hr => ⟨fun c ha => ?_, fun x' ha => ?_⟩, fun s x hv hr ha => ?_⟩
  · rw [exec_connect_of_replied (hadmitted hv hr) ha, State.afterOpenReply, hv]
  · rw [exec_connect_of_replied (hadmitted hv hr) ha, State.afterOpenReply]
  · rw [exec_connect_of_no_answers (hadmitted hv hr) ha, ← hv]
    cases Config.freeOpenReply s.calls.length <;> rfl

/-- Settles O15: each word is the OP and the ARG that the vector lists for it, of which the decoder's verdict is known. -/
theorem sampleCommandWords : Obligations.SampleCommandWords :=
  ⟨decode_commandWord false 0b000#3 0x0000#16, decode_commandWord false 0b000#3 0xFFFF#16,
    decode_commandWord false 0b001#3 0x0004#16, decode_commandWord false 0b010#3 0xABCD#16,
    decode_commandWord false 0b011#3 0xFFFF#16, decode_commandWord true 0b100#3 0x0000#16,
    decode_commandWord false 0b100#3 0x0000#16, decode_commandWord true 0b101#3 0x0000#16,
    decode_commandWord true 0b110#3 0x0190#16, decode_commandWord true 0b111#3 0xFFFF#16⟩

end Sys2Proof
